-- ==== Sys2Proof/Word.lean ====
section
/-! DEFINITION. The widths of the values the block handles (00_scope.md R10, R11): all are unsigned bit vectors,
bit 0 the least significant, and none is ever added or extended with a sign. -/

namespace Sys2Proof

/-- A 32-bit register, address or data word (R1, R10: "The data path is 32 bits wide"). -/
abbrev Word := BitVec 32

/-- One byte of the model's own serialisation of an instruction (assumption 13). -/
abbrev Byte := BitVec 8

/-- The 4-bit command/byte-enable word `cbe` (R92). -/
abbrev Command := BitVec 4

/-- An 8-bit register offset: `off` of the Command/Status file or `cfg_addr` (R60). -/
abbrev Offset := BitVec 8

/-- A word of the operation table: 10 bits for the step-select and port formats; a BUS_CMD word uses the low 4 (R104). -/
abbrev PortWord := BitVec 10

end Sys2Proof
end

