-- ==== Sys2Proof/Syntax.lean ====
section
/-! DEFINITION. The syntax of the hardware: the input sample of one clock edge (10_state.md R37, 30_encoding.md R102)
and the operations of spec/opcode_table.json, one constructor of `Instr` per row. -/

namespace Sys2Proof

/-- The engine's sequencing state `st` (10_state.md R21). -/
inductive Phase where
  | idle
  | decode
  | ioRead
  | ioWrite
  deriving DecidableEq, Repr, Inhabited

/-- The inputs `I_n` sampled at one clock edge (R37). Every handshake line and `rst` is `true` when ASSERTED (R9).
`adDrive` is what the initiator drives on the address/data bus, `none` when it does not drive it; the block's input view
`ad_in` is computed from it (`Sample.adIn`, assumption 9). -/
structure Sample where
  /-- reset line, asserted (R262) -/
  rst : Bool
  /-- frame, asserted -/
  frame : Bool
  /-- initiator-ready, asserted -/
  irdy : Bool
  /-- command/byte-enable bus -/
  cbe : Command
  /-- the value the initiator drives on the address/data bus, if it drives it (R75) -/
  adDrive : Option Word
  /-- lock; never read (R177) -/
  lock : Bool
  /-- the source's "idle-select line"; never read (R177) -/
  idsel : Bool
  /-- arbitration grant; never read (R177) -/
  gnt : Bool
  /-- configuration port offset -/
  cfgAddr : Offset
  /-- configuration port write data -/
  cfgWdata : Word
  /-- configuration port write-enable -/
  cfgWe : Bool
  /-- configuration port read-enable -/
  cfgRe : Bool
  deriving DecidableEq, Repr, Inhabited

/-- The four formats of the operation table (R104). -/
inductive Format where
  | busCmd
  | fsmStep
  | cfgPort
  | csrPort
  deriving DecidableEq, Repr

/-- The readers of a word. Within one format several rows can be selected by the same word (R104: the read mux beside
the latch, write and hold rows; `IO_WRITE.store` beside `IO_WRITE.wait`); a slot is a part of the format within which at
most one row is (assumption 1). -/
inductive Slot where
  /-- FSM_STEP: the engine's transition -/
  | transition
  /-- FSM_STEP: the store of R174 -/
  | store
  /-- CFG_PORT: the read mux -/
  | cfgMux
  /-- CFG_PORT: the output latch, or the hold -/
  | cfgLatch
  /-- CFG_PORT: the write path -/
  | cfgWrite
  /-- CSR_PORT: the read mux -/
  | csrMux
  /-- CSR_PORT: the write path -/
  | csrWrite
  /-- BUS_CMD: the command word of a transaction -/
  | command
  deriving DecidableEq, Repr

/-- The format a slot belongs to. -/
def Slot.format : Slot → Format
  | .transition | .store => .fsmStep
  | .cfgMux | .cfgLatch | .cfgWrite => .cfgPort
  | .csrMux | .csrWrite => .csrPort
  | .command => .busCmd

/-- The operations of the block, one constructor per row of spec/opcode_table.json. A BUS_CMD row carries its address
word (R91). An FSM_STEP row carries the bits of the step-select word that the row leaves open (R104), and `ad_in` where it
reads it. A port row carries the open bits of its port word (R96, R97), and the write data where it writes. -/
inductive Instr where
  -- BUS_CMD
  | ign0000 (addr : Word)
  | ign0001 (addr : Word)
  | ior (addr : Word)
  | iow (addr : Word)
  | ign0100 (addr : Word)
  | ign0101 (addr : Word)
  | ign0110 (addr : Word)
  | ign0111 (addr : Word)
  | ign1000 (addr : Word)
  | ign1001 (addr : Word)
  | ign1010 (addr : Word)
  | ign1011 (addr : Word)
  | ign1100 (addr : Word)
  | ign1101 (addr : Word)
  | ign1110 (addr : Word)
  | ign1111 (addr : Word)
  -- FSM_STEP
  | idleLatchClaim (devReady irdySeen isWrite : Bool) (adIn : Word)
  | idleLatchIgnore (devReady irdySeen : Bool) (cbe : Command) (adIn : Word)
  | idleHold (devReady irdySeen frame irdy : Bool) (cbe : Command)
  | decodeGo (devReady irdySeen frame irdy : Bool) (cbe : Command)
  | ioReadEnd (cbe : Command)
  | ioReadWait (irdySeen frame irdy : Bool) (cbe : Command)
  | ioWriteStore (irdySeen frame : Bool) (cbe : Command) (adIn : Word)
  | ioWriteEnd (cbe : Command)
  | ioWriteWait (irdySeen frame irdy : Bool) (cbe : Command)
  | ioStall (isWrite irdySeen frame irdy : Bool) (cbe : Command)
  -- CFG_PORT
  | cfgRd00 (we re : Bool)
  | cfgRd04 (we re : Bool)
  | cfgRd08 (we re : Bool)
  | cfgRd0C (we re : Bool)
  | cfgRdOther (we re : Bool) (addr : Offset)
  | cfgLatch (we : Bool) (addr : Offset)
  | cfgWr04 (re : Bool) (wdata : Word)
  | cfgWrOther (re : Bool) (addr : Offset) (wdata : Word)
  | cfgHold (addr : Offset)
  -- CSR_PORT
  | csrRd00 (we re : Bool)
  | csrRd04 (we re : Bool)
  | csrRdOther (we re : Bool) (off : Offset)
  | csrWr00 (re : Bool) (wdata : Word)
  | csrWr04 (re : Bool) (wdata : Word)
  | csrWrOther (re : Bool) (off : Offset) (wdata : Word)
  deriving DecidableEq, Repr

end Sys2Proof
end

