-- ==== Sys2Proof/WellFormed.lean ====
section
/-! DEFINITION. Which terms of `Instr` are operations of the table: the default rows ("other", "wait", "hold") exclude the
words of the rows their `except` lists name (30_encoding.md R104). -/

namespace Sys2Proof

/-- `cbe` is one of the two command codes the block acts on (R92). -/
def isIoCode (cbe : Command) : Bool := cbe = 0b0010#4 || cbe = 0b0011#4

/-- The four mapped offsets of configuration space (R97). -/
def isCfgMapped (o : Offset) : Bool := o = 0x00#8 || o = 0x04#8 || o = 0x08#8 || o = 0x0C#8

/-- The two mapped offsets of the Command/Status file (R96). -/
def isCsrMapped (o : Offset) : Bool := o = 0x00#8 || o = 0x04#8

/-- The term's operands are ones its row of the table admits. -/
def Instr.wellFormed : Instr → Bool
  | .ign0000 _ | .ign0001 _ | .ior _ | .iow _ | .ign0100 _ | .ign0101 _ | .ign0110 _ | .ign0111 _
  | .ign1000 _ | .ign1001 _ | .ign1010 _ | .ign1011 _ | .ign1100 _ | .ign1101 _ | .ign1110 _ | .ign1111 _ => true
  | .idleLatchClaim _ _ _ _ => true
  | .idleLatchIgnore _ _ cbe _ => !isIoCode cbe
  | .idleHold _ _ frame irdy _ => !(frame && irdy)
  | .decodeGo _ _ _ _ _ => true
  | .ioReadEnd _ => true
  | .ioReadWait irdySeen frame irdy _ => !(irdySeen && !frame && !irdy)
  | .ioWriteStore _ _ _ _ => true
  | .ioWriteEnd _ => true
  | .ioWriteWait irdySeen frame irdy _ => !(irdySeen && !frame && !irdy)
  | .ioStall _ _ _ _ _ => true
  | .cfgRd00 _ _ | .cfgRd04 _ _ | .cfgRd08 _ _ | .cfgRd0C _ _ => true
  | .cfgRdOther _ _ addr => !isCfgMapped addr
  | .cfgLatch _ _ => true
  | .cfgWr04 _ _ => true
  | .cfgWrOther _ addr _ => !decide (addr = 0x04#8)
  | .cfgHold _ => true
  | .csrRd00 _ _ | .csrRd04 _ _ => true
  | .csrRdOther _ _ off => !isCsrMapped off
  | .csrWr00 _ _ | .csrWr04 _ _ => true
  | .csrWrOther _ off _ => !isCsrMapped off

end Sys2Proof
end

