-- ==== Sys2Proof/Decode.lean ====
section
/-! DEFINITION. Decoding and encoding: the words of the four formats (30_encoding.md R90 to R98, R104), the decoder of each
slot, the encoder, and the operation table itself as data. The serialisation into bytes is the model's own (assumption 13):
the hardware reads each word at a port of its own and fetches no instruction (R76). -/

namespace Sys2Proof

/-! ## Fields and packing -/

/-- Command code of an I/O read (R92). -/
abbrev ioReadCode : Command := 0b0010#4

/-- Command code of an I/O write (R92). -/
abbrev ioWriteCode : Command := 0b0011#4

/-- The 2-bit code of `st` inside a step-select word: IDLE=0, DECODE=1, IO_READ=2, IO_WRITE=3 (R99, decision D3). -/
def phaseCode : Phase → BitVec 2
  | .idle => 0b00#2
  | .decode => 0b01#2
  | .ioRead => 0b10#2
  | .ioWrite => 0b11#2

/-- The state a 2-bit code stands for (R99). -/
def phaseOf (c : BitVec 2) : Phase :=
  if c = 0b00#2 then .idle else if c = 0b01#2 then .decode else if c = 0b10#2 then .ioRead else .ioWrite

/-- The step-select word `st ++ dev_ready ++ irdy_seen ++ frame ++ irdy ++ cbe` (R104). -/
def packStep (st : Phase) (devReady irdySeen frame irdy : Bool) (cbe : Command) : PortWord :=
  phaseCode st ++ BitVec.ofBool devReady ++ BitVec.ofBool irdySeen ++ BitVec.ofBool frame ++ BitVec.ofBool irdy ++ cbe

/-- A port word `we ++ re ++ offset` of either register file (R96, R97). -/
def packPort (we re : Bool) (o : Offset) : PortWord :=
  BitVec.ofBool we ++ BitVec.ofBool re ++ o

/-- Bits 3 to 0: `cbe`. -/
def cbeField (w : PortWord) : Command := w.extractLsb' 0 4

/-- Bits 7 to 0: the offset of a port word. -/
def offsetField (w : PortWord) : Offset := w.extractLsb' 0 8

/-- The end condition in a step-select word: `irdy_seen = 1`, `frame = 0`, `irdy = 0` (rows `IO_READ.end`, `IO_WRITE.end`). -/
def endBits (irdySeen frame irdy : Bool) : Bool := irdySeen && !frame && !irdy

/-! ## The decoder -/

/-- Why a word is rejected. -/
inductive DecodeError where
  /-- fewer than six bytes -/
  | truncated
  /-- bits 15 to 13 of the tagged word are not zero -/
  | reservedBits
  /-- a command word wider than 4 bits -/
  | commandTooWide
  /-- the store slot, and the word is not `IO_WRITE.store` -/
  | noStore
  /-- the latch slot in a write-only cycle: the latch neither loads nor is the port at rest (R130) -/
  | noLatch
  /-- a write slot, and the write-enable is 0 -/
  | noWrite
  deriving DecidableEq, Repr

/-- The transition the engine makes for a step-select word (R104; every word selects exactly one). -/
def decodeTransition (w : PortWord) (d : Word) : Instr :=
  let devReady := w.getLsbD 7
  let irdySeen := w.getLsbD 6
  let frame := w.getLsbD 5
  let irdy := w.getLsbD 4
  let cbe := cbeField w
  match phaseOf (w.extractLsb' 8 2) with
  | .idle =>
    if frame && irdy then
      if cbe = ioReadCode ∨ cbe = ioWriteCode then .idleLatchClaim devReady irdySeen (cbe.getLsbD 0) d
      else .idleLatchIgnore devReady irdySeen cbe d
    else .idleHold devReady irdySeen frame irdy cbe
  | .decode => .decodeGo devReady irdySeen frame irdy cbe
  | .ioRead =>
    if devReady then
      if endBits irdySeen frame irdy then .ioReadEnd cbe else .ioReadWait irdySeen frame irdy cbe
    else .ioStall false irdySeen frame irdy cbe
  | .ioWrite =>
    if devReady then
      if endBits irdySeen frame irdy then .ioWriteEnd cbe else .ioWriteWait irdySeen frame irdy cbe
    else .ioStall true irdySeen frame irdy cbe

/-- The store row, selected when `st = IO_WRITE`, `dev_ready = 1` and `irdy = 1` (R104, R174). -/
def decodeStore (w : PortWord) (d : Word) : Except DecodeError Instr :=
  if phaseOf (w.extractLsb' 8 2) = .ioWrite ∧ w.getLsbD 7 ∧ w.getLsbD 4 then
    .ok (.ioWriteStore (w.getLsbD 6) (w.getLsbD 5) (cbeField w) d)
  else .error .noStore

/-- The read mux of the Configuration file: "a switch on the low byte of the offset" with a default (R97). -/
def decodeCfgMux (w : PortWord) : Instr :=
  let we := w.getLsbD 9
  let re := w.getLsbD 8
  let o := offsetField w
  if o = 0x00#8 then .cfgRd00 we re
  else if o = 0x04#8 then .cfgRd04 we re
  else if o = 0x08#8 then .cfgRd08 we re
  else if o = 0x0C#8 then .cfgRd0C we re
  else .cfgRdOther we re o

/-- The output latch: `cfg_re = 1` loads it, both enables 0 is a hold (R97). -/
def decodeCfgLatch (w : PortWord) : Except DecodeError Instr :=
  if w.getLsbD 8 then .ok (.cfgLatch (w.getLsbD 9) (offsetField w))
  else if w.getLsbD 9 then .error .noLatch
  else .ok (.cfgHold (offsetField w))

/-- The write path of the Configuration file (R97, R127, R128). -/
def decodeCfgWrite (w : PortWord) (d : Word) : Except DecodeError Instr :=
  if w.getLsbD 9 then
    if offsetField w = 0x04#8 then .ok (.cfgWr04 (w.getLsbD 8) d)
    else .ok (.cfgWrOther (w.getLsbD 8) (offsetField w) d)
  else .error .noWrite

/-- The read mux of the Command/Status file (R96). -/
def decodeCsrMux (w : PortWord) : Instr :=
  let we := w.getLsbD 9
  let re := w.getLsbD 8
  let o := offsetField w
  if o = 0x00#8 then .csrRd00 we re
  else if o = 0x04#8 then .csrRd04 we re
  else .csrRdOther we re o

/-- The write path of the Command/Status file (R96). -/
def decodeCsrWrite (w : PortWord) (d : Word) : Except DecodeError Instr :=
  if w.getLsbD 9 then
    if offsetField w = 0x00#8 then .ok (.csrWr00 (w.getLsbD 8) d)
    else if offsetField w = 0x04#8 then .ok (.csrWr04 (w.getLsbD 8) d)
    else .ok (.csrWrOther (w.getLsbD 8) (offsetField w) d)
  else .error .noWrite

/-- The transaction a command code starts: two codes are acted on, fourteen are ignored (R92, R94). -/
def decodeCommandCode (cbe : Command) (a : Word) : Instr :=
  if cbe = 0b0000#4 then .ign0000 a
  else if cbe = 0b0001#4 then .ign0001 a
  else if cbe = ioReadCode then .ior a
  else if cbe = ioWriteCode then .iow a
  else if cbe = 0b0100#4 then .ign0100 a
  else if cbe = 0b0101#4 then .ign0101 a
  else if cbe = 0b0110#4 then .ign0110 a
  else if cbe = 0b0111#4 then .ign0111 a
  else if cbe = 0b1000#4 then .ign1000 a
  else if cbe = 0b1001#4 then .ign1001 a
  else if cbe = 0b1010#4 then .ign1010 a
  else if cbe = 0b1011#4 then .ign1011 a
  else if cbe = 0b1100#4 then .ign1100 a
  else if cbe = 0b1101#4 then .ign1101 a
  else if cbe = 0b1110#4 then .ign1110 a
  else .ign1111 a

/-- A command word is 4 bits (R92). -/
def decodeCommand (w : PortWord) (a : Word) : Except DecodeError Instr :=
  if w.extractLsb' 4 6 = 0#6 then .ok (decodeCommandCode (cbeField w) a) else .error .commandTooWide

/-- The row that slot `sl` selects for the word `w`; `d` is the 32-bit word presented beside it (the address of a command,
`ad_in` of a step, the write data of a port), which a row that reads none ignores. -/
def decodeWord (sl : Slot) (w : PortWord) (d : Word) : Except DecodeError Instr :=
  match sl with
  | .transition => .ok (decodeTransition w d)
  | .store => decodeStore w d
  | .cfgMux => .ok (decodeCfgMux w)
  | .cfgLatch => decodeCfgLatch w
  | .cfgWrite => decodeCfgWrite w d
  | .csrMux => .ok (decodeCsrMux w)
  | .csrWrite => decodeCsrWrite w d
  | .command => decodeCommand w d

/-! ## The encoder -/

/-- The slot of a row. -/
def Instr.slot : Instr → Slot
  | .ign0000 _ | .ign0001 _ | .ior _ | .iow _ | .ign0100 _ | .ign0101 _ | .ign0110 _ | .ign0111 _
  | .ign1000 _ | .ign1001 _ | .ign1010 _ | .ign1011 _ | .ign1100 _ | .ign1101 _ | .ign1110 _ | .ign1111 _ => .command
  | .idleLatchClaim _ _ _ _ | .idleLatchIgnore _ _ _ _ | .idleHold _ _ _ _ _ | .decodeGo _ _ _ _ _ | .ioReadEnd _
  | .ioReadWait _ _ _ _ | .ioWriteEnd _ | .ioWriteWait _ _ _ _ | .ioStall _ _ _ _ _ => .transition
  | .ioWriteStore _ _ _ _ => .store
  | .cfgRd00 _ _ | .cfgRd04 _ _ | .cfgRd08 _ _ | .cfgRd0C _ _ | .cfgRdOther _ _ _ => .cfgMux
  | .cfgLatch _ _ | .cfgHold _ => .cfgLatch
  | .cfgWr04 _ _ | .cfgWrOther _ _ _ => .cfgWrite
  | .csrRd00 _ _ | .csrRd04 _ _ | .csrRdOther _ _ _ => .csrMux
  | .csrWr00 _ _ | .csrWr04 _ _ | .csrWrOther _ _ _ => .csrWrite

/-- A command code as a 10-bit table word. -/
def packCommand (cbe : Command) : PortWord := 0#6 ++ cbe

/-- The table word of an operation, written from the `encoding` column of the table (R92, R94, R96, R97, R104). -/
def Instr.word : Instr → PortWord
  | .ign0000 _ => packCommand 0b0000#4
  | .ign0001 _ => packCommand 0b0001#4
  | .ior _ => packCommand 0b0010#4
  | .iow _ => packCommand 0b0011#4
  | .ign0100 _ => packCommand 0b0100#4
  | .ign0101 _ => packCommand 0b0101#4
  | .ign0110 _ => packCommand 0b0110#4
  | .ign0111 _ => packCommand 0b0111#4
  | .ign1000 _ => packCommand 0b1000#4
  | .ign1001 _ => packCommand 0b1001#4
  | .ign1010 _ => packCommand 0b1010#4
  | .ign1011 _ => packCommand 0b1011#4
  | .ign1100 _ => packCommand 0b1100#4
  | .ign1101 _ => packCommand 0b1101#4
  | .ign1110 _ => packCommand 0b1110#4
  | .ign1111 _ => packCommand 0b1111#4
  | .idleLatchClaim d s wr _ => packStep .idle d s true true (0b001#3 ++ BitVec.ofBool wr)
  | .idleLatchIgnore d s c _ => packStep .idle d s true true c
  | .idleHold d s f i c => packStep .idle d s f i c
  | .decodeGo d s f i c => packStep .decode d s f i c
  | .ioReadEnd c => packStep .ioRead true true false false c
  | .ioReadWait s f i c => packStep .ioRead true s f i c
  | .ioWriteStore s f c _ => packStep .ioWrite true s f true c
  | .ioWriteEnd c => packStep .ioWrite true true false false c
  | .ioWriteWait s f i c => packStep .ioWrite true s f i c
  | .ioStall wr s f i c => packStep (if wr then .ioWrite else .ioRead) false s f i c
  | .cfgRd00 we re => packPort we re 0x00#8
  | .cfgRd04 we re => packPort we re 0x04#8
  | .cfgRd08 we re => packPort we re 0x08#8
  | .cfgRd0C we re => packPort we re 0x0C#8
  | .cfgRdOther we re o => packPort we re o
  | .cfgLatch we o => packPort we true o
  | .cfgWr04 re _ => packPort true re 0x04#8
  | .cfgWrOther re o _ => packPort true re o
  | .cfgHold o => packPort false false o
  | .csrRd00 we re => packPort we re 0x00#8
  | .csrRd04 we re => packPort we re 0x04#8
  | .csrRdOther we re o => packPort we re o
  | .csrWr00 re _ => packPort true re 0x00#8
  | .csrWr04 re _ => packPort true re 0x04#8
  | .csrWrOther re o _ => packPort true re o

/-- The 32-bit word an operation reads beside its table word; zero for a row that reads none. -/
def Instr.operand : Instr → Word
  | .ign0000 a | .ign0001 a | .ior a | .iow a | .ign0100 a | .ign0101 a | .ign0110 a | .ign0111 a
  | .ign1000 a | .ign1001 a | .ign1010 a | .ign1011 a | .ign1100 a | .ign1101 a | .ign1110 a | .ign1111 a => a
  | .idleLatchClaim _ _ _ d | .idleLatchIgnore _ _ _ d | .ioWriteStore _ _ _ d => d
  | .cfgWr04 _ d | .cfgWrOther _ _ d | .csrWr00 _ d | .csrWr04 _ d | .csrWrOther _ _ d => d
  | .idleHold _ _ _ _ _ | .decodeGo _ _ _ _ _ | .ioReadEnd _ | .ioReadWait _ _ _ _ | .ioWriteEnd _
  | .ioWriteWait _ _ _ _ | .ioStall _ _ _ _ _ => 0#32
  | .cfgRd00 _ _ | .cfgRd04 _ _ | .cfgRd08 _ _ | .cfgRd0C _ _ | .cfgRdOther _ _ _ | .cfgLatch _ _ | .cfgHold _ => 0#32
  | .csrRd00 _ _ | .csrRd04 _ _ | .csrRdOther _ _ _ => 0#32

/-! ## Bytes -/

/-- The 3-bit tag of a slot in the model's serialisation (assumption 13). -/
def slotCode : Slot → BitVec 3
  | .transition => 0#3
  | .store => 1#3
  | .cfgMux => 2#3
  | .cfgLatch => 3#3
  | .cfgWrite => 4#3
  | .csrMux => 5#3
  | .csrWrite => 6#3
  | .command => 7#3

/-- The slot a tag stands for. -/
def slotOf (c : BitVec 3) : Slot :=
  if c = 0#3 then .transition
  else if c = 1#3 then .store
  else if c = 2#3 then .cfgMux
  else if c = 3#3 then .cfgLatch
  else if c = 4#3 then .cfgWrite
  else if c = 5#3 then .csrMux
  else if c = 6#3 then .csrWrite
  else .command

/-- Six bytes: the table word with the slot's tag above it in bits 12 to 10, then the 32-bit operand word, each with its
low byte first (assumption 13). -/
def layBytes (sl : Slot) (w : PortWord) (d : Word) : List Byte :=
  [w.extractLsb' 0 8, 0#3 ++ slotCode sl ++ w.extractLsb' 8 2,
   d.extractLsb' 0 8, d.extractLsb' 8 8, d.extractLsb' 16 8, d.extractLsb' 24 8]

/-- The operation six bytes hold; total on any bytes, every rejection by name. -/
def decodeBytes : List Byte → Except DecodeError Instr
  | b0 :: b1 :: b2 :: b3 :: b4 :: b5 :: _ =>
    if b1.extractLsb' 5 3 = 0#3 then
      decodeWord (slotOf (b1.extractLsb' 2 3)) (b1.extractLsb' 0 2 ++ b0) (b5 ++ b4 ++ b3 ++ b2)
    else .error .reservedBits
  | _ => .error .truncated

/-- The bytes of an operation. -/
def encode (i : Instr) : List Byte := layBytes i.slot i.word i.operand

/-! ## The table as data -/

/-- The names of the 41 rows of spec/opcode_table.json. -/
inductive RowName where
  | ign0000 | ign0001 | ior | iow | ign0100 | ign0101 | ign0110 | ign0111
  | ign1000 | ign1001 | ign1010 | ign1011 | ign1100 | ign1101 | ign1110 | ign1111
  | idleLatchClaim | idleLatchIgnore | idleHold | decodeGo | ioReadEnd | ioReadWait | ioWriteStore | ioWriteEnd
  | ioWriteWait | ioStall
  | cfgRd00 | cfgRd04 | cfgRd08 | cfgRd0C | cfgRdOther | cfgLatch | cfgWr04 | cfgWrOther
  | cfgHold
  | csrRd00 | csrRd04 | csrRdOther | csrWr00 | csrWr04 | csrWrOther
  deriving DecidableEq, Repr

/-- A row's mnemonic, letter for letter. -/
def RowName.mnemonic : RowName → String
  | .ign0000 => "IGN_0000"
  | .ign0001 => "IGN_0001"
  | .ior => "IOR"
  | .iow => "IOW"
  | .ign0100 => "IGN_0100"
  | .ign0101 => "IGN_0101"
  | .ign0110 => "IGN_0110"
  | .ign0111 => "IGN_0111"
  | .ign1000 => "IGN_1000"
  | .ign1001 => "IGN_1001"
  | .ign1010 => "IGN_1010"
  | .ign1011 => "IGN_1011"
  | .ign1100 => "IGN_1100"
  | .ign1101 => "IGN_1101"
  | .ign1110 => "IGN_1110"
  | .ign1111 => "IGN_1111"
  | .idleLatchClaim => "IDLE.latch+claim"
  | .idleLatchIgnore => "IDLE.latch+ignore"
  | .idleHold => "IDLE.hold"
  | .decodeGo => "DECODE.go"
  | .ioReadEnd => "IO_READ.end"
  | .ioReadWait => "IO_READ.wait"
  | .ioWriteStore => "IO_WRITE.store"
  | .ioWriteEnd => "IO_WRITE.end"
  | .ioWriteWait => "IO_WRITE.wait"
  | .ioStall => "IO.stall"
  | .cfgRd00 => "CFG.RD@00"
  | .cfgRd04 => "CFG.RD@04"
  | .cfgRd08 => "CFG.RD@08"
  | .cfgRd0C => "CFG.RD@0C"
  | .cfgRdOther => "CFG.RD@other"
  | .cfgLatch => "CFG.LATCH"
  | .cfgWr04 => "CFG.WR@04"
  | .cfgWrOther => "CFG.WR@other"
  | .cfgHold => "CFG.HOLD"
  | .csrRd00 => "CSR.RD@00"
  | .csrRd04 => "CSR.RD@04"
  | .csrRdOther => "CSR.RD@other"
  | .csrWr00 => "CSR.WR@00"
  | .csrWr04 => "CSR.WR@04"
  | .csrWrOther => "CSR.WR@other"

/-- The row an operation belongs to. -/
def Instr.row : Instr → RowName
  | .ign0000 _ => .ign0000
  | .ign0001 _ => .ign0001
  | .ior _ => .ior
  | .iow _ => .iow
  | .ign0100 _ => .ign0100
  | .ign0101 _ => .ign0101
  | .ign0110 _ => .ign0110
  | .ign0111 _ => .ign0111
  | .ign1000 _ => .ign1000
  | .ign1001 _ => .ign1001
  | .ign1010 _ => .ign1010
  | .ign1011 _ => .ign1011
  | .ign1100 _ => .ign1100
  | .ign1101 _ => .ign1101
  | .ign1110 _ => .ign1110
  | .ign1111 _ => .ign1111
  | .idleLatchClaim _ _ _ _ => .idleLatchClaim
  | .idleLatchIgnore _ _ _ _ => .idleLatchIgnore
  | .idleHold _ _ _ _ _ => .idleHold
  | .decodeGo _ _ _ _ _ => .decodeGo
  | .ioReadEnd _ => .ioReadEnd
  | .ioReadWait _ _ _ _ => .ioReadWait
  | .ioWriteStore _ _ _ _ => .ioWriteStore
  | .ioWriteEnd _ => .ioWriteEnd
  | .ioWriteWait _ _ _ _ => .ioWriteWait
  | .ioStall _ _ _ _ _ => .ioStall
  | .cfgRd00 _ _ => .cfgRd00
  | .cfgRd04 _ _ => .cfgRd04
  | .cfgRd08 _ _ => .cfgRd08
  | .cfgRd0C _ _ => .cfgRd0C
  | .cfgRdOther _ _ _ => .cfgRdOther
  | .cfgLatch _ _ => .cfgLatch
  | .cfgWr04 _ _ => .cfgWr04
  | .cfgWrOther _ _ _ => .cfgWrOther
  | .cfgHold _ => .cfgHold
  | .csrRd00 _ _ => .csrRd00
  | .csrRd04 _ _ => .csrRd04
  | .csrRdOther _ _ _ => .csrRdOther
  | .csrWr00 _ _ => .csrWr00
  | .csrWr04 _ _ => .csrWr04
  | .csrWrOther _ _ _ => .csrWrOther

/-- A row of the table: its name, format, mask, match and `except` list (R104). -/
structure Row where
  name : RowName
  format : Format
  mask : PortWord
  matchBits : PortWord
  exceptRows : List RowName
  deriving DecidableEq, Repr

/-- The BUS_CMD rows. -/
def busCmdRows : List Row := [
  ⟨.ign0000, .busCmd, 0x00F#10, 0x000#10, []⟩,
  ⟨.ign0001, .busCmd, 0x00F#10, 0x001#10, []⟩,
  ⟨.ior, .busCmd, 0x00F#10, 0x002#10, []⟩,
  ⟨.iow, .busCmd, 0x00F#10, 0x003#10, []⟩,
  ⟨.ign0100, .busCmd, 0x00F#10, 0x004#10, []⟩,
  ⟨.ign0101, .busCmd, 0x00F#10, 0x005#10, []⟩,
  ⟨.ign0110, .busCmd, 0x00F#10, 0x006#10, []⟩,
  ⟨.ign0111, .busCmd, 0x00F#10, 0x007#10, []⟩,
  ⟨.ign1000, .busCmd, 0x00F#10, 0x008#10, []⟩,
  ⟨.ign1001, .busCmd, 0x00F#10, 0x009#10, []⟩,
  ⟨.ign1010, .busCmd, 0x00F#10, 0x00A#10, []⟩,
  ⟨.ign1011, .busCmd, 0x00F#10, 0x00B#10, []⟩,
  ⟨.ign1100, .busCmd, 0x00F#10, 0x00C#10, []⟩,
  ⟨.ign1101, .busCmd, 0x00F#10, 0x00D#10, []⟩,
  ⟨.ign1110, .busCmd, 0x00F#10, 0x00E#10, []⟩,
  ⟨.ign1111, .busCmd, 0x00F#10, 0x00F#10, []⟩]

/-- The FSM_STEP rows. -/
def fsmStepRows : List Row := [
  ⟨.idleLatchClaim, .fsmStep, 0x33E#10, 0x032#10, []⟩,
  ⟨.idleLatchIgnore, .fsmStep, 0x330#10, 0x030#10, [.idleLatchClaim]⟩,
  ⟨.idleHold, .fsmStep, 0x300#10, 0x000#10, [.idleLatchClaim, .idleLatchIgnore]⟩,
  ⟨.decodeGo, .fsmStep, 0x300#10, 0x100#10, []⟩,
  ⟨.ioReadEnd, .fsmStep, 0x3F0#10, 0x2C0#10, []⟩,
  ⟨.ioReadWait, .fsmStep, 0x380#10, 0x280#10, [.ioReadEnd]⟩,
  ⟨.ioWriteStore, .fsmStep, 0x390#10, 0x390#10, []⟩,
  ⟨.ioWriteEnd, .fsmStep, 0x3F0#10, 0x3C0#10, []⟩,
  ⟨.ioWriteWait, .fsmStep, 0x380#10, 0x380#10, [.ioWriteEnd]⟩,
  ⟨.ioStall, .fsmStep, 0x280#10, 0x200#10, []⟩]

/-- The CFG_PORT rows. -/
def cfgPortRows : List Row := [
  ⟨.cfgRd00, .cfgPort, 0x0FF#10, 0x000#10, []⟩,
  ⟨.cfgRd04, .cfgPort, 0x0FF#10, 0x004#10, []⟩,
  ⟨.cfgRd08, .cfgPort, 0x0FF#10, 0x008#10, []⟩,
  ⟨.cfgRd0C, .cfgPort, 0x0FF#10, 0x00C#10, []⟩,
  ⟨.cfgRdOther, .cfgPort, 0x000#10, 0x000#10, [.cfgRd00, .cfgRd04, .cfgRd08, .cfgRd0C]⟩,
  ⟨.cfgLatch, .cfgPort, 0x100#10, 0x100#10, []⟩,
  ⟨.cfgWr04, .cfgPort, 0x2FF#10, 0x204#10, []⟩,
  ⟨.cfgWrOther, .cfgPort, 0x200#10, 0x200#10, [.cfgWr04]⟩,
  ⟨.cfgHold, .cfgPort, 0x300#10, 0x000#10, []⟩]

/-- The CSR_PORT rows. -/
def csrPortRows : List Row := [
  ⟨.csrRd00, .csrPort, 0x0FF#10, 0x000#10, []⟩,
  ⟨.csrRd04, .csrPort, 0x0FF#10, 0x004#10, []⟩,
  ⟨.csrRdOther, .csrPort, 0x000#10, 0x000#10, [.csrRd00, .csrRd04]⟩,
  ⟨.csrWr00, .csrPort, 0x2FF#10, 0x200#10, []⟩,
  ⟨.csrWr04, .csrPort, 0x2FF#10, 0x204#10, []⟩,
  ⟨.csrWrOther, .csrPort, 0x200#10, 0x200#10, [.csrWr00, .csrWr04]⟩]

/-- The 41 rows. -/
def tableRows : List Row := busCmdRows ++ fsmStepRows ++ cfgPortRows ++ csrPortRows

/-- The row of a name. -/
def rowOf (n : RowName) : Option Row := tableRows.find? fun r => decide (r.name = n)

/-- `w & mask = match`. -/
def Row.fits (r : Row) (w : PortWord) : Bool := decide (w &&& r.mask = r.matchBits)

/-- "A word w selects a row when w & mask = match and w selects none of the rows named in the row's except list" (R104).
An excepted row is itself tested with its exceptions; `n` bounds how deep they nest (two levels in the table). -/
def Row.selectedBy : Nat → Row → PortWord → Bool
  | 0, r, w => r.fits w
  | n + 1, r, w =>
    r.fits w && r.exceptRows.all fun m => tableRows.all fun q => !(decide (q.name = m) && Row.selectedBy n q w)

/-- The words a format presents: 4 bits for a command (R92), 10 for the others (R96, R97, R104). -/
def Format.presents : Format → PortWord → Bool
  | .busCmd, w => decide (w.extractLsb' 4 6 = 0#6)
  | .fsmStep, _ | .cfgPort, _ | .csrPort, _ => true

/-! ## The host's words -/

/-- The row read from a table word given as a number (assumption 12). A BUS_CMD row has at most 8 bits. The three 10-bit
formats use the same numbers, so bits 12 to 10, above every table word, carry the slot's tag; with the tag 0 the word is a
step-select word, and the store row, where it is selected, goes before the transition selected with it. -/
def decodeTableWord (nbits w : Nat) : Option Instr :=
  let t := BitVec.ofNat 16 w
  let low := t.extractLsb' 0 10
  if nbits ≤ 8 then (decodeBytes (layBytes .command low 0#32)).toOption
  else if t.extractLsb' 10 6 = 0#6 then
    match decodeBytes (layBytes .store low 0#32) with
    | .ok i => some i
    | .error _ => (decodeBytes (layBytes .transition low 0#32)).toOption
  else (decodeBytes [t.extractLsb' 0 8, t.extractLsb' 8 8, 0#8, 0#8, 0#8, 0#8]).toOption

end Sys2Proof
end

