-- ==== Sys2Proof/Config.lean ====
section
/-! DEFINITION. What an implementation fixes (the OPEN parameters of 00_scope.md R10) and the model's one free value (the
inputs of a cycle that the pending stimulus does not reach). -/

namespace Sys2Proof

/-- The three OPEN parameters of the hardware (R10, decisions D12 and D13). The machine's State carries one value of this
type that no step changes, so a claim over all states is a claim over every value of the parameters (assumption 5). -/
structure Config where
  /-- `CSR_RESET_CMD`: reset value of the command word (D12) -/
  csrResetCmd : Word
  /-- `CSR_RESET_STAT`: reset value of the status word (D12) -/
  csrResetStat : Word
  /-- `RST_REGS`: whether `rst` reloads the register files (D13) -/
  rstRegs : Bool
  deriving DecidableEq, Repr

/-- The values the spec recommends for the open parameters (R10). DESIGN CHOICE (assumption 5), unsafe: only
`State.reset` uses them. -/
def Config.recommended : Config :=
  { csrResetCmd := 0x00000000#32, csrResetStat := 0x00000000#32, rstRegs := true }

/-- The input sample of cycle `n` when no pending sample says what it is: any value (R8, R41: "chosen freely by the other
agents at every cycle"; 93_implementation_defined.md U6, U19). It has no body, so nothing can be proved about its value.
DESIGN CHOICE (assumption 2), safe. -/
opaque Config.freeInput : Nat → Sample

end Sys2Proof
end

