-- ==== Sys2Proof/Machine/State.lean ====
section
/-! DEFINITION. The state of the block (10_state.md R20), its parameters, the pending stimulus and the record of the last
cycle; the reset state (R42); the reasons a step could stop. -/

namespace Sys2Proof.Machine

/-- The Protocol Engine's state (R20 to R25). -/
structure Engine where
  /-- the FSM state (R21) -/
  st : Phase
  /-- "latched 32-bit address" (R22) -/
  addrLatch : Word
  /-- "latched 4-bit command code" (R23) -/
  cmdLatch : Command
  /-- "one-cycle 'device ready' delay flag" (R24) -/
  devReady : Bool
  /-- initiator-ready was sampled asserted at an earlier edge of this stay (R25, decision D5) -/
  irdySeen : Bool
  deriving DecidableEq, Repr

/-- The Command/Status file: two words of 32 bits (R26, R27). -/
structure CsrFile where
  /-- `csr_cmd`, offset 0x00 -/
  cmd : Word
  /-- `csr_stat`, offset 0x04 -/
  stat : Word
  deriving DecidableEq, Repr

/-- The Configuration file (R28 to R36): one writable field, one latch, fixed fields and inert base-address slots. -/
structure CfgFile where
  /-- `cfg_command`, the only writable field (R30) -/
  command : BitVec 16
  /-- `cfg_dout`, the synchronous output latch (R36) -/
  dout : Word
  /-- R28 -/
  vendorId : BitVec 16
  /-- R29 -/
  deviceId : BitVec 16
  /-- configuration status (R31, decision D27) -/
  status : BitVec 16
  /-- R32 -/
  revisionId : BitVec 8
  /-- R33 -/
  classCode : BitVec 24
  /-- R34 -/
  cacheLineSize : BitVec 8
  /-- R34 -/
  latencyTimer : BitVec 8
  /-- R34 -/
  headerType : BitVec 8
  /-- R34 -/
  bist : BitVec 8
  /-- `bar[0]` to `bar[5]` (R35) -/
  bar : Vector Word 6
  deriving DecidableEq, Repr

/-- What one cycle showed: the outputs `O_n` (R38), the wires between the engine and the Command/Status file (R39), the
combinational read value of the Configuration file (R7, R120), and the bus value the harness resolves (R75; `none` when both
parties drive, which has no value). A record kept for the observer; no rule of the block reads it (assumption 3). -/
structure Shown where
  devsel : Bool
  trdy : Bool
  stop : Bool
  adOe : Bool
  adOut : Word
  perr : Bool
  serr : Bool
  req : Bool
  cfgDout : Word
  off : Offset
  csrRe : Bool
  csrWe : Bool
  csrWdata : Word
  csrRdata : Word
  cfgRdata : Word
  bus : Option Word
  deriving DecidableEq, Repr

/-- The machine's state. `engine`, `csr` and `cfg` are the block's own state, each owned by one component (R20, R40);
`config` holds the implementation's parameters; `cycle`, `stim` and `shown` are the model's own (assumptions 2 to 4). -/
structure State where
  engine : Engine
  csr : CsrFile
  cfg : CfgFile
  /-- the OPEN parameters (R10); no step changes them (assumption 5) -/
  config : Config
  /-- the number n of the present cycle (R7) -/
  cycle : Nat
  /-- what the other agents present at the coming edges, the next one first (R8, R37) -/
  stim : List Sample
  /-- what the last completed cycle showed -/
  shown : Shown
  deriving DecidableEq, Repr

/-- Reasons to stop with a fault: there is none. "The hardware raises no exception, reports no error and has no error
state" (R230); no behaviour is treated as a fault (93_implementation_defined.md U5). -/
inductive Fault where
  deriving DecidableEq, Repr

/-- Reasons to refuse an instruction. No meaning of this model refuses: every operation of the table runs. -/
inductive Refusal where
  /-- raised only by an arm of `exec` whose instruction had no meaning; no arm raises it (safe) -/
  | notModelled (mnemonic : String)
  deriving DecidableEq, Repr

/-- The engine at reset (R42): IDLE is "initial"; the latches and flags by the spec's decisions D14 and D5 (assumption 6). -/
def Engine.reset : Engine :=
  { st := .idle, addrLatch := 0x00000000#32, cmdLatch := 0b0000#4, devReady := false, irdySeen := false }

/-- The Command/Status file at reset: the two parameters (R42, D12). -/
def CsrFile.reset (c : Config) : CsrFile := { cmd := c.csrResetCmd, stat := c.csrResetStat }

/-- The Configuration file at reset (R42). -/
def CfgFile.reset : CfgFile :=
  { command := 0x0000#16, dout := 0x00000000#32, vendorId := 0x1234#16, deviceId := 0x5678#16, status := 0x0200#16,
    revisionId := 0x01#8, classCode := 0x000000#24, cacheLineSize := 0x00#8, latencyTimer := 0x00#8,
    headerType := 0x00#8, bist := 0x00#8, bar := #v[0#32, 0#32, 0#32, 0#32, 0#32, 0#32] }

/-- The record before any cycle has been shown: the idle outputs of R161. DESIGN CHOICE (assumption 3), safe. -/
def Shown.reset : Shown :=
  { devsel := false, trdy := false, stop := false, adOe := false, adOut := 0x00000000#32, perr := false, serr := false,
    req := false, cfgDout := 0x00000000#32, off := 0x00#8, csrRe := false, csrWe := false, csrWdata := 0xFFFFFFFF#32,
    csrRdata := 0x00000000#32, cfgRdata := 0x00000000#32, bus := some 0xFFFFFFFF#32 }

/-- The reset state `S_reset` (R42) of an implementation with the parameters `c`, with nothing presented yet. -/
def State.resetOf (c : Config) : State :=
  { engine := Engine.reset, csr := CsrFile.reset c, cfg := CfgFile.reset, config := c, cycle := 0, stim := [],
    shown := Shown.reset }

/-- The machine right after reset, with the parameters at their recommended values (R10, R42, assumption 5). -/
def State.reset : State := State.resetOf Config.recommended

end Sys2Proof.Machine
end

