-- ==== Sys2Proof/Machine/Operands.lean ====
section
/-! DEFINITION. Operands: the input view of the shared bus, wire levels, the register offset of an address, the words
assembled by the Configuration file, and the words each slot reads in a cycle. -/

namespace Sys2Proof

/-! ## The sample of an edge -/

/-- An undriven address/data bus reads as all ones (R75, R100). -/
abbrev undrivenBus : Word := 0xFFFFFFFF#32

/-- The input view `ad_in` of the address/data bus: what the initiator drives, else the undriven value (R272,
93_implementation_defined.md U14). No rule reads it in a cycle in which the target drives (R268). -/
def Sample.adIn (i : Sample) : Word := i.adDrive.getD undrivenBus

/-- A cycle in which nobody asserts anything: the pseudo-operation `NOP 1` of R103. -/
def Sample.quiet : Sample :=
  { rst := false, frame := false, irdy := false, cbe := 0b0000#4, adDrive := none, lock := false, idsel := false,
    gnt := false, cfgAddr := 0x00#8, cfgWdata := 0x00000000#32, cfgWe := false, cfgRe := false }

end Sys2Proof

namespace Sys2Proof.Machine

/-- "unmapped register reads return the fixed sentinel 0xFFFFFFFF" (R69). -/
abbrev sentinel : Word := 0xFFFFFFFF#32

/-- The level of an active-low line: "asserted by driving logic 0" (R9, R100). -/
def activeLow (asserted : Bool) : Bool := !asserted

/-- The levels on the input wires: frame, initiator-ready, lock and reset are active low; the polarity of idle-select and
grant is not in the source and they are kept as they are (R9, R100, assumption 17). -/
structure InputLevels where
  rstN : Bool
  frameN : Bool
  irdyN : Bool
  lockN : Bool
  idsel : Bool
  gnt : Bool
  deriving DecidableEq, Repr

/-- The sample that the wire levels stand for, the value-carrying lines as in `base` (R100). -/
def InputLevels.sample (l : InputLevels) (base : Sample) : Sample :=
  { base with rst := activeLow l.rstN, frame := activeLow l.frameN, irdy := activeLow l.irdyN,
              lock := activeLow l.lockN, idsel := l.idsel, gnt := l.gnt }

/-- The levels on the output wires that are active low (R9, R100); `ad_oe` is 1 when the target drives and is not among
them. -/
structure OutputLevels where
  devselN : Bool
  trdyN : Bool
  stopN : Bool
  perrN : Bool
  serrN : Bool
  deriving DecidableEq, Repr

/-- The wire levels of what a cycle showed (R100). -/
def Shown.levels (o : Shown) : OutputLevels :=
  { devselN := activeLow o.devsel, trdyN := activeLow o.trdy, stopN := activeLow o.stop,
    perrN := activeLow o.perr, serrN := activeLow o.serr }

/-! ## Offsets -/

/-- The register offset of an I/O address: `off = 0b00 ++ addr[5:2] ++ 0b00` (R61, R166, decision D8). -/
def offsetOf (a : Word) : Offset := 0b00#2 ++ a.extractLsb' 2 4 ++ 0b00#2

/-- The register word index `idx` of an address word, bits 5 to 2 (R91). -/
def indexOf (a : Word) : BitVec 4 := a.extractLsb' 2 4

/-- The port offset of a wider configuration offset: only "the low byte of the offset" is decoded (R133). -/
def portOffset (wide : Word) : Offset := wide.extractLsb' 0 8

/-! ## The words of configuration space -/

/-- The word at 0x00: vendor id low, device id high (R98). -/
def CfgFile.idWord (f : CfgFile) : Word := f.deviceId ++ f.vendorId

/-- The word at 0x04: command low, status high (R98). -/
def CfgFile.commandWord (f : CfgFile) : Word := f.status ++ f.command

/-- The word at 0x08: revision id low, class code high (R98). -/
def CfgFile.classWord (f : CfgFile) : Word := f.classCode ++ f.revisionId

/-- The word at 0x0C: cache-line-size, latency-timer, header-type, BIST from the low byte up (R98, decision D21). -/
def CfgFile.miscWord (f : CfgFile) : Word := f.bist ++ f.headerType ++ f.latencyTimer ++ f.cacheLineSize

/-- The part of the write data the command field takes: `cfg_wdata[15:0]` (R98). -/
def commandOperand (v : Word) : BitVec 16 := v.extractLsb' 0 16

end Sys2Proof.Machine
end

