-- ==== Sys2Proof/Machine/Flags.lean ====
section
/-! DEFINITION. The handshake conditions and the two one-bit flags of the engine, `dev_ready` and `irdy_seen` (R46): every
place that computes one. The hardware has no condition codes. -/

namespace Sys2Proof.Machine

/-- The start condition: frame and initiator-ready both sampled asserted (R167). -/
def starts (frame irdy : Bool) : Bool := frame && irdy

/-- The end condition: initiator-ready was seen at an earlier edge of the stay, and both lines are now deasserted
(R173, R175, decision D5). -/
def endsStay (irdySeen frame irdy : Bool) : Bool := irdySeen && !frame && !irdy

/-- `irdy_seen' = irdy_seen or irdy` at a wait edge (R173, R175). -/
def seenAfter (irdySeen irdy : Bool) : Bool := irdySeen || irdy

/-- The command code is one the engine claims (R169); the test is an equality on all four bits (R92). -/
def claims (cbe : Command) : Bool := cbe = ioReadCode || cbe = ioWriteCode

/-- The engine is in an IO state with the device-ready gate open (R163, R164, R173 to R175, decision D6). -/
def Engine.ioOpen (e : Engine) : Bool :=
  match e.st with
  | .idle | .decode => false
  | .ioRead | .ioWrite => e.devReady

end Sys2Proof.Machine
end

