-- ==== Sys2Proof/Machine/Ops.lean ====
section
/-! DEFINITION. The named operations: reads and writes of the two register files (the hardware's only memory), the outputs
of each engine state, the engine's moves, the reset of the register files, and the record of a cycle. There is no exception
to take and none to return from (R230, R238, R239), so there is no operation for either. -/

namespace Sys2Proof.Machine

/-! ## Register files -/

/-- `CsrRead(off)`: combinational, defined for every offset (R141 to R143). The read-enable has no effect (R147). -/
def CsrFile.read (f : CsrFile) (off : Offset) : Word :=
  if off = 0x00#8 then f.cmd
  else if off = 0x04#8 then f.stat
  else sentinel

/-- `CsrWrite(off, v)`: all 32 bits of the selected word; an unmapped offset has nothing to write (R144 to R146). -/
def CsrFile.write (f : CsrFile) (off : Offset) (v : Word) : CsrFile :=
  if off = 0x00#8 then { f with cmd := v }
  else if off = 0x04#8 then { f with stat := v }
  else f

/-- `CfgRead(o)`: combinational, defined for every offset (R121 to R125, exact match by decision D16). -/
def CfgFile.read (f : CfgFile) (o : Offset) : Word :=
  if o = 0x00#8 then f.idWord
  else if o = 0x04#8 then f.commandWord
  else if o = 0x08#8 then f.classWord
  else if o = 0x0C#8 then f.miscWord
  else sentinel

/-- `CfgWrite(o, v)`: only the command field is writable, at 0x04; every other write is dropped (R127, R128). -/
def CfgFile.write (f : CfgFile) (o : Offset) (v : Word) : CfgFile :=
  if o = 0x04#8 then { f with command := commandOperand v } else f

/-- The output latch loads the combinational read value (R126). -/
def CfgFile.latch (f : CfgFile) (o : Offset) : CfgFile := { f with dout := f.read o }

/-- The register file part of `rst`: command and latch back to their reset values (R131, R263). -/
def CfgFile.applyReset (f : CfgFile) : CfgFile := { f with command := 0x0000#16, dout := 0x00000000#32 }

/-! ## Outputs of a state -/

/-- Device-select: asserted in DECODE and in both IO states (R161 to R164). -/
def Engine.devsel (e : Engine) : Bool :=
  match e.st with
  | .idle => false
  | .decode | .ioRead | .ioWrite => true

/-- Target-ready: the device-ready flag in an IO state, else deasserted (R161 to R164, decision D22). -/
def Engine.trdy (e : Engine) : Bool :=
  match e.st with
  | .idle | .decode => false
  | .ioRead | .ioWrite => e.devReady

/-- Output-enable: only in IO_READ, with the device-ready flag set (R161 to R164). -/
def Engine.adOe (e : Engine) : Bool :=
  match e.st with
  | .ioRead => e.devReady
  | .idle | .decode | .ioWrite => false

/-- Read-enable toward the Command/Status file (R161 to R164). -/
def Engine.csrRe (e : Engine) : Bool :=
  match e.st with
  | .ioRead => e.devReady
  | .idle | .decode | .ioWrite => false

/-- Write-enable toward the Command/Status file at an edge that samples `irdy` (R174, R176). -/
def Engine.csrWe (e : Engine) (irdy : Bool) : Bool :=
  match e.st with
  | .ioWrite => e.devReady && irdy
  | .idle | .decode | .ioRead => false

/-- The offset wire, presented in every state (R166). -/
def Engine.off (e : Engine) : Offset := offsetOf e.addrLatch

/-- `ad_out`: the addressed word while the target drives, else zero (R181, decision D11). -/
def State.adOut (s : State) : Word :=
  if s.engine.adOe then s.csr.read s.engine.off else 0x00000000#32

/-- The value the harness resolves on the shared bus: the driver's, all ones if neither drives, and none if both do (R75,
93_implementation_defined.md U7, assumption 10). -/
def resolveBus (target initiator : Option Word) : Option Word :=
  match target, initiator with
  | some _, some _ => none
  | some v, none => some v
  | none, some v => some v
  | none, none => some undrivenBus

/-- What the target drives on the shared bus in a cycle. -/
def State.targetDrive (s : State) : Option Word := if s.engine.adOe then some s.adOut else none

/-- Writes into the record everything the cycle shows but the two read muxes, which their own rows drive (R38, R39, R165). -/
def State.showCycle (i : Sample) (s : State) : State :=
  { s with shown :=
    { s.shown with
      devsel := s.engine.devsel, trdy := s.engine.trdy, stop := false, adOe := s.engine.adOe, adOut := s.adOut,
      perr := false, serr := false, req := false, cfgDout := s.cfg.dout, off := s.engine.off,
      csrRe := s.engine.csrRe, csrWe := s.engine.csrWe i.irdy, csrWdata := i.adIn,
      bus := resolveBus s.targetDrive i.adDrive } }

/-- The Command/Status read mux drives `csr_rdata` (R39, R140). -/
def State.driveCsrRdata (o : Offset) (s : State) : State :=
  { s with shown := { s.shown with csrRdata := s.csr.read o } }

/-- The Configuration read mux drives its internal value (R120). -/
def State.driveCfgRdata (o : Offset) (s : State) : State :=
  { s with shown := { s.shown with cfgRdata := s.cfg.read o } }

/-- A store into the Command/Status file. -/
def State.writeCsr (o : Offset) (v : Word) (s : State) : State := { s with csr := s.csr.write o v }

/-- A write of the Configuration file. -/
def State.writeCfg (o : Offset) (v : Word) (s : State) : State := { s with cfg := s.cfg.write o v }

/-- A load of the Configuration file's output latch. -/
def State.latchCfg (o : Offset) (s : State) : State := { s with cfg := s.cfg.latch o }

/-! ## The engine's moves -/

/-- The latch of a start edge (R168). -/
def Engine.latch (ad : Word) (cbe : Command) (e : Engine) : Engine := { e with addrLatch := ad, cmdLatch := cbe }

/-- The claim: DECODE from the next cycle (R169). -/
def Engine.claim (e : Engine) : Engine := { e with st := .decode }

/-- The DECODE step (R172). -/
def Engine.goIo (e : Engine) : Engine :=
  { e with devReady := true, irdySeen := false, st := if e.cmdLatch = ioReadCode then .ioRead else .ioWrite }

/-- The return to IDLE at an end edge (R173, R175). -/
def Engine.finish (e : Engine) : Engine := { e with st := .idle, devReady := false, irdySeen := false }

/-- A wait edge in an IO state (R173, R175). -/
def Engine.wait (irdy : Bool) (e : Engine) : Engine := { e with irdySeen := seenAfter e.irdySeen irdy }

/-- A guarded rule of the engine: where its condition fails, the rule changes nothing ("a field of the state that a rule
does not prime keeps its value", R12; assumption 8). -/
def State.moveEngine (guard : Bool) (f : Engine → Engine) (s : State) : State :=
  if guard then { s with engine := f s.engine } else s

/-! ## Reset of the register files, and the passing of a cycle -/

/-- `rst` at an edge: if `RST_REGS`, both register files take their reset values, overriding any write or latch load of the
same edge; the engine does not see it (R131, R148, R179, R263, decision D13). -/
def State.applyRst (i : Sample) (s : State) : State :=
  if i.rst && s.config.rstRegs then { s with csr := CsrFile.reset s.config, cfg := s.cfg.applyReset } else s

/-- The sample of the present cycle: the next pending one, else the free input of the cycle (R8, assumption 2). -/
def State.presented (s : State) : Sample :=
  match s.stim with
  | i :: _ => i
  | [] => Config.freeInput s.cycle

/-- The cycle is over: its number advances and its sample is used up (R7). -/
def State.tick (s : State) : State := { s with cycle := s.cycle + 1, stim := s.stim.tail }

end Sys2Proof.Machine
end

