-- ==== Sys2Proof/Machine/Listing.lean ====
section
/-! DEFINITION. One clock edge in one piece, as the reference listing of 42_engine.md section 8 writes it, with the
configuration port's rules and the reset after it; and a transaction as the edges of its pending samples (43_transactions.md).
`step` itself runs the rows that the words of the cycle select (Machine/Edge.lean); that the two agree is a statement. -/

namespace Sys2Proof.Machine

/-- The engine's share of edge n: the `case st of` of the listing. -/
def Engine.next (i : Sample) (e : Engine) : Engine :=
  match e.st with
  | .idle =>
    if i.frame && i.irdy then
      { e with addrLatch := i.adIn, cmdLatch := i.cbe, st := if claims i.cbe then .decode else .idle }
    else e
  | .decode => { e with devReady := true, irdySeen := false, st := if e.cmdLatch = ioReadCode then .ioRead else .ioWrite }
  | .ioRead | .ioWrite =>
    if e.devReady then
      if e.irdySeen && !i.frame && !i.irdy then { e with st := .idle, devReady := false, irdySeen := false }
      else { e with irdySeen := e.irdySeen || i.irdy }
    else e

/-- The Command/Status file's share: `if csr_we then CsrWrite(off, ad_in)`. -/
def State.csrNext (i : Sample) (s : State) : CsrFile :=
  if s.engine.csrWe i.irdy then s.csr.write s.engine.off i.adIn else s.csr

/-- The Configuration file's share: the latch takes the value before the write, and the two enables act independently
(R126 to R130, decision D17). -/
def CfgFile.next (i : Sample) (f : CfgFile) : CfgFile :=
  { f with
    dout := if i.cfgRe then f.read i.cfgAddr else f.dout,
    command := if i.cfgWe && i.cfgAddr = 0x04#8 then commandOperand i.cfgWdata else f.command }

/-- One clock edge with the sample `i`: every share reads `S_n`, then `rst` (listing; R71, R263). The pending stimulus is
left as it is. -/
def State.clockEdge (i : Sample) (s : State) : State :=
  State.applyRst i
    { s with
      engine := s.engine.next i,
      csr := s.csrNext i,
      cfg := s.cfg.next i,
      cycle := s.cycle + 1,
      shown := ((s.showCycle i).driveCsrRdata s.engine.off |>.driveCfgRdata i.cfgAddr).shown }

/-! ## Transactions -/

/-- The sample of the start edge of a transaction: frame and initiator-ready asserted, the command word on `cbe`, the address
word on the bus, nothing else asserted (R90). -/
def startSample (cbe : Command) (a : Word) : Sample :=
  { Sample.quiet with frame := true, irdy := true, cbe := cbe, adDrive := some a }

/-- The edges of a transaction after its start edge: one for each pending sample, until the engine is back in IDLE. Where
the pending samples run out first, the transaction is still in progress (R215: it has no end of its own). -/
def runToIdle : List Sample → State → State
  | [], s => { s with stim := [] }
  | i :: is, s => if s.engine.st = .idle then { s with stim := i :: is } else runToIdle is (s.clockEdge i)

/-- A bus command run as a transaction (R210 to R212): its start edge, then the data phase that the pending samples make, up
to and including the end edge. Presented while the engine is not in IDLE it is no start (R239): its sample passes like any
other (assumption 7). -/
def State.busCommand (cbe : Command) (a : Word) (s : State) : State :=
  let s1 := s.clockEdge (startSample cbe a)
  if s.engine.st = .idle then runToIdle s1.stim s1 else s1

end Sys2Proof.Machine
end

