-- ==== Sys2Proof/Machine/BusCmd.lean ====
section
/-! DEFINITION. The meanings of the sixteen BUS_CMD rows: the whole transaction that each command code starts
(43_transactions.md R210 to R212; 30_encoding.md R92, R94). -/

namespace Sys2Proof.Machine

/-- `IGN_0000` (R212): latched and ignored. -/
def execIgn0000 (addr : Word) (s : State) : Host.Outcome State Fault Refusal := .next (s.busCommand 0b0000#4 addr)

/-- `IGN_0001` (R212): latched and ignored. -/
def execIgn0001 (addr : Word) (s : State) : Host.Outcome State Fault Refusal := .next (s.busCommand 0b0001#4 addr)

/-- `IOR` (R210): I/O read at `addr`; the value read is `ad_out` of the IO_READ cycles, `shown.adOut` of the last one. -/
def execIor (addr : Word) (s : State) : Host.Outcome State Fault Refusal := .next (s.busCommand 0b0010#4 addr)

/-- `IOW` (R211): I/O write at `addr`; each edge of the data phase with `irdy` asserted stores `ad_in`. -/
def execIow (addr : Word) (s : State) : Host.Outcome State Fault Refusal := .next (s.busCommand 0b0011#4 addr)

/-- `IGN_0100` (R212): latched and ignored. -/
def execIgn0100 (addr : Word) (s : State) : Host.Outcome State Fault Refusal := .next (s.busCommand 0b0100#4 addr)

/-- `IGN_0101` (R212): latched and ignored. -/
def execIgn0101 (addr : Word) (s : State) : Host.Outcome State Fault Refusal := .next (s.busCommand 0b0101#4 addr)

/-- `IGN_0110` (R212): latched and ignored. -/
def execIgn0110 (addr : Word) (s : State) : Host.Outcome State Fault Refusal := .next (s.busCommand 0b0110#4 addr)

/-- `IGN_0111` (R212): latched and ignored. -/
def execIgn0111 (addr : Word) (s : State) : Host.Outcome State Fault Refusal := .next (s.busCommand 0b0111#4 addr)

/-- `IGN_1000` (R212): latched and ignored. -/
def execIgn1000 (addr : Word) (s : State) : Host.Outcome State Fault Refusal := .next (s.busCommand 0b1000#4 addr)

/-- `IGN_1001` (R212): latched and ignored. -/
def execIgn1001 (addr : Word) (s : State) : Host.Outcome State Fault Refusal := .next (s.busCommand 0b1001#4 addr)

/-- `IGN_1010` (R212): latched and ignored. -/
def execIgn1010 (addr : Word) (s : State) : Host.Outcome State Fault Refusal := .next (s.busCommand 0b1010#4 addr)

/-- `IGN_1011` (R212): latched and ignored. -/
def execIgn1011 (addr : Word) (s : State) : Host.Outcome State Fault Refusal := .next (s.busCommand 0b1011#4 addr)

/-- `IGN_1100` (R212): latched and ignored. -/
def execIgn1100 (addr : Word) (s : State) : Host.Outcome State Fault Refusal := .next (s.busCommand 0b1100#4 addr)

/-- `IGN_1101` (R212): latched and ignored. -/
def execIgn1101 (addr : Word) (s : State) : Host.Outcome State Fault Refusal := .next (s.busCommand 0b1101#4 addr)

/-- `IGN_1110` (R212): latched and ignored. -/
def execIgn1110 (addr : Word) (s : State) : Host.Outcome State Fault Refusal := .next (s.busCommand 0b1110#4 addr)

/-- `IGN_1111` (R212): latched and ignored. -/
def execIgn1111 (addr : Word) (s : State) : Host.Outcome State Fault Refusal := .next (s.busCommand 0b1111#4 addr)

end Sys2Proof.Machine
end

