-- ==== Sys2Proof/Machine/CfgPort.lean ====
section
/-! DEFINITION. The meanings of the nine CFG_PORT rows (40_cfg_regfile.md R121 to R131). A read-mux row drives the file's
combinational read value; the latch, write and hold rows act at the edge. Several rows are selected by one port word and act
independently (R129), so each row does its own share only. -/

namespace Sys2Proof.Machine

/-- `CFG.RD@00` (R121): the identification word. -/
def execCfgRd00 (_we _re : Bool) (s : State) : Host.Outcome State Fault Refusal := .next (s.driveCfgRdata 0x00#8)

/-- `CFG.RD@04` (R122): the command and status word. -/
def execCfgRd04 (_we _re : Bool) (s : State) : Host.Outcome State Fault Refusal := .next (s.driveCfgRdata 0x04#8)

/-- `CFG.RD@08` (R123): the revision and class word. -/
def execCfgRd08 (_we _re : Bool) (s : State) : Host.Outcome State Fault Refusal := .next (s.driveCfgRdata 0x08#8)

/-- `CFG.RD@0C` (R124): the cache-line-size, latency-timer, header-type and BIST word. -/
def execCfgRd0C (_we _re : Bool) (s : State) : Host.Outcome State Fault Refusal := .next (s.driveCfgRdata 0x0C#8)

/-- `CFG.RD@other` (R125): an unmapped offset reads as the sentinel. -/
def execCfgRdOther (_we _re : Bool) (addr : Offset) (s : State) : Host.Outcome State Fault Refusal :=
  .next (s.driveCfgRdata addr)

/-- `CFG.LATCH` (R126): the output latch takes the read value of the present state. -/
def execCfgLatch (_we : Bool) (addr : Offset) (s : State) : Host.Outcome State Fault Refusal := .next (s.latchCfg addr)

/-- `CFG.WR@04` (R127): the command field takes the low 16 bits of the data. -/
def execCfgWr04 (_re : Bool) (wdata : Word) (s : State) : Host.Outcome State Fault Refusal :=
  .next (s.writeCfg 0x04#8 wdata)

/-- `CFG.WR@other` (R128): a write to any other offset is dropped. -/
def execCfgWrOther (_re : Bool) (addr : Offset) (wdata : Word) (s : State) : Host.Outcome State Fault Refusal :=
  .next (s.writeCfg addr wdata)

/-- `CFG.HOLD` (R131): both enables 0, nothing of the file changes. -/
def execCfgHold (_addr : Offset) (s : State) : Host.Outcome State Fault Refusal := .next s

end Sys2Proof.Machine
end

