-- ==== Sys2Proof/Machine/CsrPort.lean ====
section
/-! DEFINITION. The meanings of the six CSR_PORT rows (41_csr_regfile.md R141 to R147). A read-mux row drives `csr_rdata`,
whatever the read-enable is (R147); a write row stores at the edge. -/

namespace Sys2Proof.Machine

/-- `CSR.RD@00` (R141): the command word. -/
def execCsrRd00 (_we _re : Bool) (s : State) : Host.Outcome State Fault Refusal := .next (s.driveCsrRdata 0x00#8)

/-- `CSR.RD@04` (R142): the status word. -/
def execCsrRd04 (_we _re : Bool) (s : State) : Host.Outcome State Fault Refusal := .next (s.driveCsrRdata 0x04#8)

/-- `CSR.RD@other` (R143): an unmapped offset reads as the sentinel. -/
def execCsrRdOther (_we _re : Bool) (off : Offset) (s : State) : Host.Outcome State Fault Refusal :=
  .next (s.driveCsrRdata off)

/-- `CSR.WR@00` (R144): the command word takes all 32 bits. -/
def execCsrWr00 (_re : Bool) (wdata : Word) (s : State) : Host.Outcome State Fault Refusal :=
  .next (s.writeCsr 0x00#8 wdata)

/-- `CSR.WR@04` (R145): the status word takes all 32 bits. -/
def execCsrWr04 (_re : Bool) (wdata : Word) (s : State) : Host.Outcome State Fault Refusal :=
  .next (s.writeCsr 0x04#8 wdata)

/-- `CSR.WR@other` (R146): an unmapped offset has nothing to write. -/
def execCsrWrOther (_re : Bool) (off : Offset) (wdata : Word) (s : State) : Host.Outcome State Fault Refusal :=
  .next (s.writeCsr off wdata)

end Sys2Proof.Machine
end

