-- ==== Sys2Proof/Machine/FsmStep.lean ====
section
/-! DEFINITION. The meanings of the ten FSM_STEP rows: the engine's share of one edge (42_engine.md R168 to R176). Each is
the rule's pseudocode: its condition on the state is the guard, its condition on the inputs is in the row's bits, and
everything it does not prime keeps its value. The state bits of the step-select word are the spec's bookkeeping (R104):
rules read the state itself (assumption 8). -/

namespace Sys2Proof.Machine

/-- `IDLE.latch+claim` (R168, R169): in IDLE at a start with command code `0b001c`, latch and go to DECODE. -/
def execIdleLatchClaim (_devReady _irdySeen isWrite : Bool) (adIn : Word) (s : State) : Host.Outcome State Fault Refusal :=
  .next (s.moveEngine (s.engine.st = .idle) fun e => (e.latch adIn (0b001#3 ++ BitVec.ofBool isWrite)).claim)

/-- `IDLE.latch+ignore` (R168, R170): in IDLE at a start with any other command code, latch and stay. -/
def execIdleLatchIgnore (_devReady _irdySeen : Bool) (cbe : Command) (adIn : Word) (s : State) :
    Host.Outcome State Fault Refusal :=
  .next (s.moveEngine (s.engine.st = .idle && !claims cbe) fun e => e.latch adIn cbe)

/-- `IDLE.hold` (R171): no start, nothing changes. -/
def execIdleHold (_devReady _irdySeen _frame _irdy : Bool) (_cbe : Command) (s : State) :
    Host.Outcome State Fault Refusal :=
  .next s

/-- `DECODE.go` (R172): unconditional in DECODE; no input is read. -/
def execDecodeGo (_devReady _irdySeen _frame _irdy : Bool) (_cbe : Command) (s : State) :
    Host.Outcome State Fault Refusal :=
  .next (s.moveEngine (s.engine.st = .decode) Engine.goIo)

/-- `IO_READ.end` (R173): the end condition, with both lines deasserted; back to IDLE with the flags cleared. -/
def execIoReadEnd (_cbe : Command) (s : State) : Host.Outcome State Fault Refusal :=
  .next (s.moveEngine (s.engine.st = .ioRead && s.engine.devReady && endsStay s.engine.irdySeen false false) Engine.finish)

/-- `IO_READ.wait` (R173): no end condition; stay, and remember an asserted `irdy`. -/
def execIoReadWait (_irdySeen frame irdy : Bool) (_cbe : Command) (s : State) : Host.Outcome State Fault Refusal :=
  .next (s.moveEngine (s.engine.st = .ioRead && s.engine.devReady && !endsStay s.engine.irdySeen frame irdy)
    (Engine.wait irdy))

/-- `IO_WRITE.store` (R174): `irdy` is asserted (it is fixed in the row), so the file stores `ad_in` at `off`. -/
def execIoWriteStore (_irdySeen _frame : Bool) (_cbe : Command) (adIn : Word) (s : State) :
    Host.Outcome State Fault Refusal :=
  .next (if s.engine.csrWe true then s.writeCsr s.engine.off adIn else s)

/-- `IO_WRITE.end` (R175): as `IO_READ.end`. -/
def execIoWriteEnd (_cbe : Command) (s : State) : Host.Outcome State Fault Refusal :=
  .next (s.moveEngine (s.engine.st = .ioWrite && s.engine.devReady && endsStay s.engine.irdySeen false false) Engine.finish)

/-- `IO_WRITE.wait` (R175): as `IO_READ.wait`. -/
def execIoWriteWait (_irdySeen frame irdy : Bool) (_cbe : Command) (s : State) : Host.Outcome State Fault Refusal :=
  .next (s.moveEngine (s.engine.st = .ioWrite && s.engine.devReady && !endsStay s.engine.irdySeen frame irdy)
    (Engine.wait irdy))

/-- `IO.stall` (R176): an IO state with `dev_ready = 0`; nothing changes. -/
def execIoStall (_isWrite _irdySeen _frame _irdy : Bool) (_cbe : Command) (s : State) : Host.Outcome State Fault Refusal :=
  .next s

end Sys2Proof.Machine
end

