-- ==== Sys2Proof/Machine/Dispatch.lean ====
section
/-! DEFINITION. The dispatch: one arm per row of spec/opcode_table.json. -/

namespace Sys2Proof.Machine

def exec (i : Instr) (s : State) : Host.Outcome State Fault Refusal :=
  match i with
  | .ign0000 addr => Sys2Proof.Machine.execIgn0000 addr s
  | .ign0001 addr => Sys2Proof.Machine.execIgn0001 addr s
  | .ior addr => Sys2Proof.Machine.execIor addr s
  | .iow addr => Sys2Proof.Machine.execIow addr s
  | .ign0100 addr => Sys2Proof.Machine.execIgn0100 addr s
  | .ign0101 addr => Sys2Proof.Machine.execIgn0101 addr s
  | .ign0110 addr => Sys2Proof.Machine.execIgn0110 addr s
  | .ign0111 addr => Sys2Proof.Machine.execIgn0111 addr s
  | .ign1000 addr => Sys2Proof.Machine.execIgn1000 addr s
  | .ign1001 addr => Sys2Proof.Machine.execIgn1001 addr s
  | .ign1010 addr => Sys2Proof.Machine.execIgn1010 addr s
  | .ign1011 addr => Sys2Proof.Machine.execIgn1011 addr s
  | .ign1100 addr => Sys2Proof.Machine.execIgn1100 addr s
  | .ign1101 addr => Sys2Proof.Machine.execIgn1101 addr s
  | .ign1110 addr => Sys2Proof.Machine.execIgn1110 addr s
  | .ign1111 addr => Sys2Proof.Machine.execIgn1111 addr s
  | .idleLatchClaim devReady irdySeen isWrite adIn => Sys2Proof.Machine.execIdleLatchClaim devReady irdySeen isWrite adIn s
  | .idleLatchIgnore devReady irdySeen cbe adIn => Sys2Proof.Machine.execIdleLatchIgnore devReady irdySeen cbe adIn s
  | .idleHold devReady irdySeen frame irdy cbe => Sys2Proof.Machine.execIdleHold devReady irdySeen frame irdy cbe s
  | .decodeGo devReady irdySeen frame irdy cbe => Sys2Proof.Machine.execDecodeGo devReady irdySeen frame irdy cbe s
  | .ioReadEnd cbe => Sys2Proof.Machine.execIoReadEnd cbe s
  | .ioReadWait irdySeen frame irdy cbe => Sys2Proof.Machine.execIoReadWait irdySeen frame irdy cbe s
  | .ioWriteStore irdySeen frame cbe adIn => Sys2Proof.Machine.execIoWriteStore irdySeen frame cbe adIn s
  | .ioWriteEnd cbe => Sys2Proof.Machine.execIoWriteEnd cbe s
  | .ioWriteWait irdySeen frame irdy cbe => Sys2Proof.Machine.execIoWriteWait irdySeen frame irdy cbe s
  | .ioStall isWrite irdySeen frame irdy cbe => Sys2Proof.Machine.execIoStall isWrite irdySeen frame irdy cbe s
  | .cfgRd00 we re => Sys2Proof.Machine.execCfgRd00 we re s
  | .cfgRd04 we re => Sys2Proof.Machine.execCfgRd04 we re s
  | .cfgRd08 we re => Sys2Proof.Machine.execCfgRd08 we re s
  | .cfgRd0C we re => Sys2Proof.Machine.execCfgRd0C we re s
  | .cfgRdOther we re addr => Sys2Proof.Machine.execCfgRdOther we re addr s
  | .cfgLatch we addr => Sys2Proof.Machine.execCfgLatch we addr s
  | .cfgWr04 re wdata => Sys2Proof.Machine.execCfgWr04 re wdata s
  | .cfgWrOther re addr wdata => Sys2Proof.Machine.execCfgWrOther re addr wdata s
  | .cfgHold addr => Sys2Proof.Machine.execCfgHold addr s
  | .csrRd00 we re => Sys2Proof.Machine.execCsrRd00 we re s
  | .csrRd04 we re => Sys2Proof.Machine.execCsrRd04 we re s
  | .csrRdOther we re off => Sys2Proof.Machine.execCsrRdOther we re off s
  | .csrWr00 re wdata => Sys2Proof.Machine.execCsrWr00 re wdata s
  | .csrWr04 re wdata => Sys2Proof.Machine.execCsrWr04 re wdata s
  | .csrWrOther re off wdata => Sys2Proof.Machine.execCsrWrOther re off wdata s

end Sys2Proof.Machine
end

