-- ==== Sys2Proof/Machine/Edge.lean ====
section
/-! DEFINITION. The clock edge as the machine runs it: the words each slot reads in the cycle, the rows they select, and
those rows run by `exec`, then `rst`, then the passing of the cycle. Also the placing of one operation at the next edge, for
`State.withFetchWord`. -/

namespace Sys2Proof.Machine

/-- The step-select word of a cycle (R104): the engine's `st`, `dev_ready`, `irdy_seen` and the sampled `frame`, `irdy`,
`cbe`. -/
def State.stepWord (i : Sample) (s : State) : PortWord :=
  packStep s.engine.st s.engine.devReady s.engine.irdySeen i.frame i.irdy i.cbe

/-- The Command/Status port word of a cycle (R96): the wires the engine drives. -/
def State.csrWord (i : Sample) (s : State) : PortWord :=
  packPort (s.engine.csrWe i.irdy) s.engine.csrRe s.engine.off

/-- The Configuration port word of a cycle (R97): inputs of the block. -/
def Sample.cfgWord (i : Sample) : PortWord := packPort i.cfgWe i.cfgRe i.cfgAddr

/-- The word each slot reads in a cycle. The command word is `cbe` (R92). -/
def State.slotWord (sl : Slot) (i : Sample) (s : State) : PortWord :=
  match sl with
  | .transition | .store => s.stepWord i
  | .cfgMux | .cfgLatch | .cfgWrite => Sample.cfgWord i
  | .csrMux | .csrWrite => s.csrWord i
  | .command => packCommand i.cbe

/-- The 32-bit word each slot reads beside it: `cfg_wdata` at the configuration port, `ad_in` everywhere else
(R95, R97, R174). -/
def slotOperand (sl : Slot) (i : Sample) : Word :=
  match sl with
  | .cfgMux | .cfgLatch | .cfgWrite => i.cfgWdata
  | .transition | .store | .csrMux | .csrWrite | .command => i.adIn

/-- The slots of an edge in the order the model runs them: each row reads only what no earlier one has written, so every row
reads `S_n` (R71, assumption 14). A command runs as a transaction of many edges and is no part of one. -/
def edgeSlots : List Slot := [.csrMux, .cfgMux, .cfgLatch, .cfgWrite, .csrWrite, .store, .transition]

/-- The rows the words of a cycle select. -/
def State.selectedRows (i : Sample) (s : State) : List Instr :=
  edgeSlots.filterMap fun sl => (decodeWord sl (s.slotWord sl i) (slotOperand sl i)).toOption

/-- Runs rows one after another. -/
def runRows : List Instr → State → Host.Outcome State Fault Refusal
  | [], s => .next s
  | r :: rs, s =>
    match exec r s with
    | .next t => runRows rs t
    | .fault f => .fault f
    | .refused f => .refused f

/-- One clock edge: the cycle is shown, the selected rows run, `rst` acts, the cycle is over. -/
def State.edgeByRows (s : State) : Host.Outcome State Fault Refusal :=
  match runRows (s.selectedRows s.presented) (s.showCycle s.presented) with
  | .next t => .next (State.tick (State.applyRst s.presented t))
  | .fault f => .fault f
  | .refused f => .refused f

/-! ## Placing one operation at the next edge -/

/-- The next pending sample is `i`. -/
def State.present (i : Sample) (s : State) : State := { s with stim := i :: s.stim.tail }

/-- Makes the next edge one at which slot `sl` reads the word `w` beside the operand `d` (assumption 12): the inputs the word
names are presented, and the state bits it names are set. The wires of the Command/Status port are driven by the engine
alone (R140), so a word of that port sets the engine that drives it. -/
def State.placeWord (sl : Slot) (w : PortWord) (d : Word) (s : State) : State :=
  match sl with
  | .command =>
    State.present (startSample (cbeField w) d) { s with engine := { s.engine with st := .idle } }
  | .transition | .store =>
    State.present
      { Sample.quiet with frame := w.getLsbD 5, irdy := w.getLsbD 4, cbe := cbeField w, adDrive := some d }
      { s with engine :=
        { s.engine with st := phaseOf (w.extractLsb' 8 2), devReady := w.getLsbD 7, irdySeen := w.getLsbD 6 } }
  | .cfgMux | .cfgLatch | .cfgWrite =>
    State.present
      { Sample.quiet with cfgWe := w.getLsbD 9, cfgRe := w.getLsbD 8, cfgAddr := offsetField w, cfgWdata := d } s
  | .csrMux | .csrWrite =>
    State.present
      { Sample.quiet with irdy := w.getLsbD 9, adDrive := some d }
      { s with engine :=
        { s.engine with
          st := if w.getLsbD 9 then .ioWrite else if w.getLsbD 8 then .ioRead else .idle,
          devReady := w.getLsbD 9 || w.getLsbD 8,
          addrLatch := 0#24 ++ offsetField w } }

/-- The slot and word that a table word given as a number stands for, read as `decodeTableWord` reads it. -/
def placeTableWord (nbits w : Nat) (s : State) : State :=
  let t := BitVec.ofNat 16 w
  let low := t.extractLsb' 0 10
  if nbits ≤ 8 then s.placeWord .command low 0#32
  else s.placeWord (slotOf (t.extractLsb' 10 3)) low 0#32

end Sys2Proof.Machine
end

