-- ==== Sys2Proof/Machine/Step.lean ====
section
/-! DEFINITION. The step: one edge of the clock (00_scope.md R6, R7). -/

namespace Sys2Proof.Machine

/-- One clock edge, `S_{n+1} = next(S_n, I_n)` (R7), with the three outcomes of the host's interface. -/
def step (s : State) : Host.Outcome State Fault Refusal := s.edgeByRows

/-- `s` with the operation whose table word is `w` placed at the next edge, so that `step` runs it (assumption 12). -/
def State.withFetchWord (s : State) (nbits w : Nat) : State := placeTableWord nbits w s

end Sys2Proof.Machine
end

