-- ==== Sys2Proof/Machine/Stimulus.lean ====
section
/-! DEFINITION. The stimulus notation of 30_encoding.md R102 and R103: a program is a list of samples, written as `CYC` lines
or as pseudo-operations that expand to them. -/

namespace Sys2Proof.Machine

/-- The primitive `CYC frame irdy cbe ad_in` with the configuration port idle and `rst` deasserted (R102); an `ad_in`
written as the undriven value is a cycle the initiator does not drive. -/
def cyc (frame irdy : Bool) (cbe : Command) (drive : Option Word) : Sample :=
  { Sample.quiet with frame := frame, irdy := irdy, cbe := cbe, adDrive := drive }

/-- The pseudo-operations (R103). -/
inductive PseudoOp where
  | iow (a d : Word)
  | ior (a : Word)
  | xcmd (c : Command) (a : Word)
  | nop (k : Nat)
  | cfgrd (o : Offset)
  | cfgwr (o : Offset) (d : Word)
  | rst (k : Nat)
  deriving DecidableEq, Repr

/-- The cycles after the start edge of the shortest I/O write (R103). -/
def writeDataPhase (d : Word) : List Sample :=
  [cyc true true 0b0000#4 (some d), cyc false true 0b0000#4 (some d), cyc false false 0b0000#4 none]

/-- The cycles after the start edge of the shortest I/O read (R103); the initiator does not drive the bus in them. -/
def readDataPhase : List Sample :=
  [cyc true true 0b0000#4 none, cyc false true 0b0000#4 none, cyc false false 0b0000#4 none]

/-- The expansion into cycles (R103). A field written `-` there is not read; it is 0 here. -/
def PseudoOp.expand : PseudoOp → List Sample
  | .iow a d => startSample ioWriteCode a :: writeDataPhase d
  | .ior a => startSample ioReadCode a :: readDataPhase
  | .xcmd c a => [startSample c a, Sample.quiet]
  | .nop k => List.replicate k Sample.quiet
  | .cfgrd o => [{ Sample.quiet with cfgRe := true, cfgAddr := o }]
  | .cfgwr o d => [{ Sample.quiet with cfgWe := true, cfgAddr := o, cfgWdata := d }]
  | .rst k => List.replicate k { Sample.quiet with rst := true }

/-- A stimulus is loaded: it goes before whatever is pending (assumption 12). -/
def State.load (prog : List Sample) (s : State) : State := { s with stim := prog ++ s.stim }

end Sys2Proof.Machine
end

