-- ==== Sys2Proof/Safety.lean ====
section
/-! DEFINITION. The terms claims are stated in: the invariants of 10_state.md R43, the shape of a data phase, and the table
of bus commands. -/

namespace Sys2Proof.Machine

/-- Everything of the Configuration file but its command field and its latch holds its reset value (R43 item 7). -/
abbrev CfgFile.fixedHold (f : CfgFile) : Prop := { f with command := 0x0000#16, dout := 0x00000000#32 } = CfgFile.reset

/-- The invariants of reachable states, numbered as in R43. -/
structure State.Inv (s : State) : Prop where
  /-- item 1 -/
  flagsClear : s.engine.st = .idle ∨ s.engine.st = .decode → s.engine.devReady = false ∧ s.engine.irdySeen = false
  /-- item 2 -/
  readyInIo : s.engine.st = .ioRead ∨ s.engine.st = .ioWrite → s.engine.devReady = true
  /-- item 3 -/
  decodeCode : s.engine.st = .decode → s.engine.cmdLatch = ioReadCode ∨ s.engine.cmdLatch = ioWriteCode
  /-- item 4 -/
  readCode : s.engine.st = .ioRead → s.engine.cmdLatch = ioReadCode
  /-- item 4 -/
  writeCode : s.engine.st = .ioWrite → s.engine.cmdLatch = ioWriteCode
  /-- item 5 -/
  drivesInRead : s.engine.adOe = true ↔ s.engine.st = .ioRead
  /-- item 6 -/
  trdyClaimed : s.engine.trdy = true → s.engine.devsel = true
  /-- item 7 -/
  fixedHold : s.cfg.fixedHold

/-! ## Data phases -/

/-- No sample of `ds` is an end edge of a stay that begins with `irdy_seen = seen` (R173, R175). -/
def staysOpen : Bool → List Sample → Bool
  | _, [] => true
  | seen, i :: is => !endsStay seen i.frame i.irdy && staysOpen (seenAfter seen i.irdy) is

/-- `ds` then `e` are the edges of one stay in an IO state: initiator-ready is asserted in `ds`, no edge of `ds` ends the
stay, and `e` ends it ("subsequently frame and initiator-ready are both deasserted together", R173). -/
def isDataPhase (ds : List Sample) (e : Sample) : Bool :=
  staysOpen false ds && ds.any (·.irdy) && !e.frame && !e.irdy

/-- What a write leaves in the addressed word: the `ad_in` of the last edge with `irdy` asserted (R211). -/
def lastData (ds : List Sample) : Option Word := ((ds.filter (·.irdy)).map Sample.adIn).getLast?

/-- `rst` is deasserted throughout (R263, R268). -/
def noRst (is : List Sample) : Bool := is.all fun i => !i.rst

/-- The configuration port is idle throughout (R97: both enables 0). -/
def cfgIdle (is : List Sample) : Bool := is.all fun i => !i.cfgWe && !i.cfgRe

/-- `rst` does not act on the register files at an edge of `s` with the sample `i` (R263). -/
abbrev State.noReset (s : State) (i : Sample) : Prop := (i.rst && s.config.rstRegs) = false

/-! ## The commands -/

/-- The fourteen ignored commands at the address `a`, with their codes (R94). -/
def ignoredCommands (a : Word) : List (Instr × Command) :=
  [(.ign0000 a, 0b0000#4), (.ign0001 a, 0b0001#4), (.ign0100 a, 0b0100#4), (.ign0101 a, 0b0101#4),
   (.ign0110 a, 0b0110#4), (.ign0111 a, 0b0111#4), (.ign1000 a, 0b1000#4), (.ign1001 a, 0b1001#4),
   (.ign1010 a, 0b1010#4), (.ign1011 a, 0b1011#4), (.ign1100 a, 0b1100#4), (.ign1101 a, 0b1101#4),
   (.ign1110 a, 0b1110#4), (.ign1111 a, 0b1111#4)]

/-- All sixteen commands at the address `a`, with their codes (R92, R94). -/
def busCommands (a : Word) : List (Instr × Command) :=
  (.ior a, 0b0010#4) :: (.iow a, 0b0011#4) :: ignoredCommands a

end Sys2Proof.Machine
end

