-- ==== Sys2Proof/Certificates/Slice0/Obligations.lean ====
section
/-! DEFINITION. The statements, from the numbered rules of spec/. A statement that rests on one of the spec's own decisions
(D<n> of 92_eei_decisions.md) or on a choice of this model (assumption <n>) says so. -/

open Sys2Proof Sys2Proof.Machine

/-! ## Encoding -/

/-- Words written out bit by bit from the encodings of R92, R94, R96, R97 and R104 decode to the operation they stand for, each
in its slot (assumption 1). -/
def Obligations.SampleWordsDecode : Prop :=
  ∀ d : Word,
    decodeWord .command 0b0000000011#10 d = .ok (.iow d) ∧
    decodeWord .command 0b0000001010#10 d = .ok (.ign1010 d) ∧
    decodeWord .transition 0b0000110011#10 d = .ok (.idleLatchClaim false false true d) ∧
    decodeWord .transition 0b0100000000#10 d = .ok (.decodeGo false false false false 0b0000#4) ∧
    decodeWord .transition 0b1011000000#10 d = .ok (.ioReadEnd 0b0000#4) ∧
    decodeWord .store 0b1110010000#10 d = .ok (.ioWriteStore false false 0b0000#4 d) ∧
    decodeWord .cfgWrite 0b1000000100#10 d = .ok (.cfgWr04 false d) ∧
    decodeWord .cfgLatch 0b0100000101#10 d = .ok (.cfgLatch false 0x05#8) ∧
    decodeWord .cfgMux 0b0100001100#10 d = .ok (.cfgRd0C false true) ∧
    decodeWord .csrMux 0b0100001000#10 d = .ok (.csrRdOther false true 0x08#8) ∧
    decodeWord .csrWrite 0b1000000100#10 d = .ok (.csrWr04 false d)

/-- Decoding the encoded bytes of a well-formed operation gives it back, every operand at every value its row admits. The
byte layout is the model's own (assumption 13). -/
def Obligations.DecodeOfEncodeIsIdentity : Prop :=
  ∀ i : Instr, i.wellFormed = true → decodeBytes (encode i) = .ok i

/-- Whatever a slot decodes is a well-formed operation of that slot, whose word is the one read and whose operand is the one
presented (or none). -/
def Obligations.DecodedOperationReencodes : Prop :=
  ∀ (sl : Slot) (w : PortWord) (d : Word) (i : Instr), decodeWord sl w d = .ok i →
    i.wellFormed = true ∧ i.slot = sl ∧ i.word = w ∧ (i.operand = d ∨ i.operand = 0#32)

/-- The decoder selects exactly the rows that the table's masks, matches and exceptions select (R104). The split of a format
into slots is the model's (assumption 1). -/
def Obligations.DecoderAgreesWithTable : Prop :=
  ∀ (w : PortWord) (d : Word) (r : Row), r ∈ tableRows → r.format.presents w = true →
    (r.selectedBy 2 w = true ↔ ∃ sl i, sl.format = r.format ∧ decodeWord sl w d = .ok i ∧ i.row = r.name)

/-- Which slots select a row: the transition and both read muxes always, a command for every 4-bit word, the store exactly
when `st = IO_WRITE`, `dev_ready` and `irdy` are set, a write row exactly when the write-enable is set, the latch slot unless
the cycle is write-only. When each row is selected is R104's; the slots are the model's (assumption 1, DESIGN CHOICE), and that
one slot holds both `CFG.LATCH` and `CFG.HOLD` is what makes the latch slot select nothing in a write-only cycle (where the
latch holds by R130, decision D17). -/
def Obligations.SlotsSelectWhenTheRulesSay : Prop :=
  ∀ (w : PortWord) (d : Word),
    (∃ i, decodeWord .transition w d = .ok i) ∧ (∃ i, decodeWord .cfgMux w d = .ok i) ∧
    (∃ i, decodeWord .csrMux w d = .ok i) ∧
    ((∃ i, decodeWord .command w d = .ok i) ↔ w.toNat < 16) ∧
    ((∃ i, decodeWord .store w d = .ok i) ↔ w &&& 0x390#10 = 0x390#10) ∧
    ((∃ i, decodeWord .cfgWrite w d = .ok i) ↔ w &&& 0x200#10 = 0x200#10) ∧
    ((∃ i, decodeWord .csrWrite w d = .ok i) ↔ w &&& 0x200#10 = 0x200#10) ∧
    ((∃ i, decodeWord .cfgLatch w d = .ok i) ↔ w &&& 0x300#10 ≠ 0x200#10)

/-- The words a placed operation leaves to be read are the placed word and operand: at the next edge the slot reads `w`
beside `d`; a Command/Status word can be placed where the engine can present it, at a multiple of 4 below 0x40 with at most
one enable (R96, R166). The model's own (assumption 12). -/
def Obligations.PlacedWordIsReadNext : Prop :=
  (∀ (sl : Slot) (w : PortWord) (d : Word) (s : State), sl ≠ .csrMux → sl ≠ .csrWrite →
    (sl = .command → w.toNat < 16) →
    (s.placeWord sl w d).slotWord sl (s.placeWord sl w d).presented = w ∧
    slotOperand sl (s.placeWord sl w d).presented = d) ∧
  (∀ (sl : Slot) (we re : Bool) (idx : BitVec 4) (d : Word) (s : State), sl = .csrMux ∨ sl = .csrWrite →
    (we && re) = false →
    let w := packPort we re (0b00#2 ++ idx ++ 0b00#2)
    (s.placeWord sl w d).slotWord sl (s.placeWord sl w d).presented = w ∧
    slotOperand sl (s.placeWord sl w d).presented = d)

/-! ## The step -/

/-- A step runs the rows that the words of its cycle select: what each selected row does to its part of the state is what the
step does to that part, a part whose slot selects nothing keeps its value, and the step also counts the cycle, uses up the
pending sample and leaves the parameters. The register files are as their rows leave them where `rst` does not act on
them. The slots are the model's (assumption 1), and so is the order of the rows (assumption 14). -/
def Obligations.StepRunsTheSelectedRows : Prop :=
  ∀ s : State, ∃ t, step s = .next t ∧
    t.cycle = s.cycle + 1 ∧ t.stim = s.stim.tail ∧ t.config = s.config ∧
    (∀ r u, decodeWord .transition (s.stepWord s.presented) s.presented.adIn = .ok r → exec r s = .next u →
      t.engine = u.engine) ∧
    (∀ r u, decodeWord .csrMux (s.csrWord s.presented) s.presented.adIn = .ok r → exec r s = .next u →
      t.shown.csrRdata = u.shown.csrRdata) ∧
    (∀ r u, decodeWord .cfgMux (Sample.cfgWord s.presented) s.presented.cfgWdata = .ok r → exec r s = .next u →
      t.shown.cfgRdata = u.shown.cfgRdata) ∧
    (s.noReset s.presented →
      (∀ r u, decodeWord .store (s.stepWord s.presented) s.presented.adIn = .ok r → exec r s = .next u →
        t.csr = u.csr) ∧
      (∀ r u, decodeWord .csrWrite (s.csrWord s.presented) s.presented.adIn = .ok r → exec r s = .next u →
        t.csr = u.csr) ∧
      (∀ e, decodeWord .store (s.stepWord s.presented) s.presented.adIn = .error e → t.csr = s.csr) ∧
      (∀ r u, decodeWord .cfgLatch (Sample.cfgWord s.presented) s.presented.cfgWdata = .ok r → exec r s = .next u →
        t.cfg.dout = u.cfg.dout) ∧
      (∀ e, decodeWord .cfgLatch (Sample.cfgWord s.presented) s.presented.cfgWdata = .error e →
        t.cfg.dout = s.cfg.dout) ∧
      (∀ r u, decodeWord .cfgWrite (Sample.cfgWord s.presented) s.presented.cfgWdata = .ok r → exec r s = .next u →
        t.cfg.command = u.cfg.command) ∧
      (∀ e, decodeWord .cfgWrite (Sample.cfgWord s.presented) s.presented.cfgWdata = .error e →
        t.cfg.command = s.cfg.command))

/-- Running the selected rows one after another is the reference listing of 42_engine.md section 8, in which every share
reads `S_n` at once. The order of the rows is the model's (assumption 14). -/
def Obligations.StepIsTheReferenceListing : Prop :=
  ∀ s : State, step s = .next { s.clockEdge s.presented with stim := s.stim.tail }

/-- A bus command run as a transaction is a run of clock edges: its start sample, then pending samples, one step each. That a
command takes the pending samples as its data phase is the model's choice (assumption 7). -/
def Obligations.TransactionIsARunOfSteps : Prop :=
  ∀ (a : Word) (p : Instr × Command), p ∈ busCommands a → ∀ s : State,
    ∃ k, 1 ≤ k ∧ k ≤ s.stim.length + 1 ∧
      Host.Core.run Sys2Proof.core k { s with stim := startSample p.2 a :: s.stim } = exec p.1 s

/-- No operation and no step stops: every one answers a next state, whatever the state (R230, R232: every input has a
defined next state). -/
def Obligations.NothingEverStops : Prop :=
  (∀ (i : Instr) (s : State), ∃ t, exec i s = .next t) ∧ ∀ s : State, ∃ t, step s = .next t

/-! ## Reset and invariants -/

/-- The reset state, for every value of the open parameters (R42). The latches and flags are the spec's decisions D14 and D5
(assumption 6), `cfg_dout` is D18; `cycle` and `stim` are the model's own (assumptions 2 and 4). -/
def Obligations.ResetState : Prop :=
  ∀ c : Config,
    let s := State.resetOf c
    s.engine = ⟨.idle, 0x00000000#32, 0b0000#4, false, false⟩ ∧
    s.csr = ⟨c.csrResetCmd, c.csrResetStat⟩ ∧
    s.cfg.vendorId = 0x1234#16 ∧ s.cfg.deviceId = 0x5678#16 ∧ s.cfg.command = 0x0000#16 ∧ s.cfg.status = 0x0200#16 ∧
    s.cfg.revisionId = 0x01#8 ∧ s.cfg.classCode = 0x000000#24 ∧ s.cfg.cacheLineSize = 0x00#8 ∧
    s.cfg.latencyTimer = 0x00#8 ∧ s.cfg.headerType = 0x00#8 ∧ s.cfg.bist = 0x00#8 ∧
    (∀ k : Fin 6, s.cfg.bar[k] = 0x00000000#32) ∧ s.cfg.dout = 0x00000000#32 ∧
    s.config = c ∧ s.cycle = 0 ∧ s.stim = [] ∧
    s.engine.devsel = false ∧ s.engine.trdy = false ∧ s.engine.adOe = false ∧ s.adOut = 0x00000000#32 ∧
    State.reset = State.resetOf ⟨0x00000000#32, 0x00000000#32, true⟩

/-- The reset state has the invariants of R43, whatever the parameters. -/
def Obligations.ResetHasInvariants : Prop := ∀ c : Config, (State.resetOf c).Inv

/-- Every step keeps the invariants of R43, whatever the inputs. -/
def Obligations.StepKeepsInvariants : Prop :=
  ∀ s : State, s.Inv → ∃ t, step s = .next t ∧ t.Inv

/-- Every operation, a whole transaction among them, keeps the invariants of R43 from every state that has them. -/
def Obligations.OperationsKeepInvariants : Prop :=
  ∀ (i : Instr) (s : State), s.Inv → ∃ t, exec i s = .next t ∧ t.Inv

/-- No operation and no step changes a fixed configuration field, a base-address slot or a parameter (R28 to R35, R41; "all
other configuration fields are unchanged by any write to any offset"). -/
def Obligations.FixedFieldsNeverChange : Prop :=
  (∀ (i : Instr) (s : State), ∃ t, exec i s = .next t ∧ t.config = s.config ∧
    { t.cfg with command := s.cfg.command, dout := s.cfg.dout } = s.cfg) ∧
  ∀ s : State, ∃ t, step s = .next t ∧ t.config = s.config ∧
    { t.cfg with command := s.cfg.command, dout := s.cfg.dout } = s.cfg

/-- Ownership (R40): a step changes `csr_cmd` or `csr_stat` only by a store of the engine or by `rst`, at most the addressed
word in the first case; `cfg_command` only by a write to 0x04 or by `rst`; `cfg_dout` only by a latch load or by `rst`. -/
def Obligations.RegisterFilesOwnTheirState : Prop :=
  ∀ s : State, ∃ t, step s = .next t ∧
    (t.csr ≠ s.csr → (s.presented.rst = true ∧ s.config.rstRegs = true) ∨
      (s.engine.st = .ioWrite ∧ s.engine.devReady = true ∧ s.presented.irdy = true ∧
        ∀ o, o ≠ s.engine.off → t.csr.read o = s.csr.read o)) ∧
    (t.cfg.command ≠ s.cfg.command → (s.presented.rst = true ∧ s.config.rstRegs = true) ∨
      (s.presented.cfgWe = true ∧ s.presented.cfgAddr = 0x04#8)) ∧
    (t.cfg.dout ≠ s.cfg.dout → (s.presented.rst = true ∧ s.config.rstRegs = true) ∨ s.presented.cfgRe = true)

/-! ## Configuration Space file -/

/-- The four mapped words read as R121 to R124 say, in every state with the fixed fields of R43 item 7, whatever has been
written; the row drives the read value and changes nothing else, and its port word has the offset in its low byte. In the
cycle of a write the value at 0x04 is still the old one, and from the next cycle on it is the new one. -/
def Obligations.CfgMappedReads : Prop :=
  ∀ (we re : Bool) (s : State), s.cfg.fixedHold →
    exec (.cfgRd00 we re) s = .next { s with shown := { s.shown with cfgRdata := 0x56781234#32 } } ∧
    exec (.cfgRd04 we re) s = .next { s with shown := { s.shown with cfgRdata := 0x0200#16 ++ s.cfg.command } } ∧
    exec (.cfgRd08 we re) s = .next { s with shown := { s.shown with cfgRdata := 0x00000001#32 } } ∧
    exec (.cfgRd0C we re) s = .next { s with shown := { s.shown with cfgRdata := 0x00000000#32 } } ∧
    (∀ o v, (s.cfg.write o v).read 0x00#8 = 0x56781234#32 ∧ (s.cfg.write o v).read 0x08#8 = 0x00000001#32 ∧
      (s.cfg.write o v).read 0x0C#8 = 0x00000000#32 ∧
      (s.cfg.write o v).read 0x04#8 = 0x0200#16 ++ (s.cfg.write o v).command) ∧
    (∀ (w : PortWord) (d : Word),
      (w.extractLsb' 0 8 = 0x00#8 → ∃ b c, decodeWord .cfgMux w d = .ok (.cfgRd00 b c)) ∧
      (w.extractLsb' 0 8 = 0x04#8 → ∃ b c, decodeWord .cfgMux w d = .ok (.cfgRd04 b c)) ∧
      (w.extractLsb' 0 8 = 0x08#8 → ∃ b c, decodeWord .cfgMux w d = .ok (.cfgRd08 b c)) ∧
      (w.extractLsb' 0 8 = 0x0C#8 → ∃ b c, decodeWord .cfgMux w d = .ok (.cfgRd0C b c))) ∧
    (s.presented.cfgAddr = 0x04#8 → ∃ t, step s = .next t ∧ t.shown.cfgRdata = 0x0200#16 ++ s.cfg.command ∧
      t.cfg.read 0x04#8 = 0x0200#16 ++ t.cfg.command)

/-- Every other offset reads as the sentinel, one that is not a multiple of 4 among them (R125, R69; exact match is decision
D16); the row changes nothing else. -/
def Obligations.CfgUnmappedReadsAreSentinel : Prop :=
  ∀ (we re : Bool) (o : Offset) (s : State), o ≠ 0x00#8 → o ≠ 0x04#8 → o ≠ 0x08#8 → o ≠ 0x0C#8 →
    exec (.cfgRdOther we re o) s = .next { s with shown := { s.shown with cfgRdata := 0xFFFFFFFF#32 } }

/-- The output latch (R126): the row loads the read value of the present state and changes nothing else; at an edge with
`cfg_re` the latch takes that value, computed before any write of the edge, and at an edge without it holds. -/
def Obligations.CfgLatchLoads : Prop :=
  (∀ (we : Bool) (o : Offset) (s : State),
    exec (.cfgLatch we o) s = .next { s with cfg := { s.cfg with dout := s.cfg.read o } }) ∧
  ∀ s : State, s.noReset s.presented → ∃ t, step s = .next t ∧
    t.cfg.dout = if s.presented.cfgRe then s.cfg.read s.presented.cfgAddr else s.cfg.dout

/-- A write to 0x04 (R127): the command field takes bits 15 to 0 of the data and nothing else changes; the next read of 0x04
shows it under the unchanged status, and no other offset reads differently. An edge with `cfg_we` at 0x04 does the same. -/
def Obligations.CfgWriteCommandField : Prop :=
  (∀ (re : Bool) (v : Word) (s : State), ∃ t, exec (.cfgWr04 re v) s = .next t ∧
    t = { s with cfg := { s.cfg with command := v.extractLsb' 0 16 } } ∧
    t.cfg.read 0x04#8 = s.cfg.status ++ v.extractLsb' 0 16 ∧
    (s.cfg.fixedHold → t.cfg.read 0x04#8 = 0x0200#16 ++ v.extractLsb' 0 16) ∧
    ∀ o, o ≠ 0x04#8 → t.cfg.read o = s.cfg.read o) ∧
  ∀ s : State, s.noReset s.presented → s.presented.cfgWe = true → s.presented.cfgAddr = 0x04#8 →
    ∃ t, step s = .next t ∧
      t.cfg = { s.cfg with command := s.presented.cfgWdata.extractLsb' 0 16, dout := t.cfg.dout }

/-- A write to any other offset changes no state (R128): neither the row, nor an edge with `cfg_we` there, but for the output
latch, which is not a write's. -/
def Obligations.CfgOtherWritesAreDropped : Prop :=
  (∀ (re : Bool) (o : Offset) (v : Word) (s : State), o ≠ 0x04#8 → exec (.cfgWrOther re o v) s = .next s) ∧
  ∀ s : State, s.noReset s.presented → s.presented.cfgWe = true → s.presented.cfgAddr ≠ 0x04#8 →
    ∃ t, step s = .next t ∧ t.cfg = { s.cfg with dout := t.cfg.dout }

/-- The hold row changes nothing (R131), and at an edge the two enables act independently: a write-only cycle leaves the
latch, and with both enables the latch takes the value before the write (R129, R130: decision D17). -/
def Obligations.CfgEnablesActIndependently : Prop :=
  (∀ (o : Offset) (s : State), exec (.cfgHold o) s = .next s) ∧
  ∀ s : State, s.noReset s.presented → ∃ t, step s = .next t ∧
    t.cfg = { s.cfg with
      dout := if s.presented.cfgRe then s.cfg.read s.presented.cfgAddr else s.cfg.dout
      command := if s.presented.cfgWe ∧ s.presented.cfgAddr = 0x04#8 then s.presented.cfgWdata.extractLsb' 0 16
        else s.cfg.command }

/-! ## Command/Status file -/

/-- The two mapped words read as stored (R141, R142): the row drives `csr_rdata` and changes nothing else, whatever the
read-enable is; before any write the words are the reset parameters, after a write the written value, and at an edge without
a store neither word changes by itself. -/
def Obligations.CsrMappedReads : Prop :=
  (∀ (we re : Bool) (s : State),
    exec (.csrRd00 we re) s = .next { s with shown := { s.shown with csrRdata := s.csr.cmd } } ∧
    exec (.csrRd04 we re) s = .next { s with shown := { s.shown with csrRdata := s.csr.stat } }) ∧
  (∀ c : Config, (State.resetOf c).csr.read 0x00#8 = c.csrResetCmd ∧ (State.resetOf c).csr.read 0x04#8 = c.csrResetStat) ∧
  (∀ (f : CsrFile) (v : Word), (f.write 0x00#8 v).read 0x00#8 = v ∧ (f.write 0x04#8 v).read 0x04#8 = v) ∧
  (∀ a : Word, (a.extractLsb' 2 4 = 0b0000#4 → offsetOf a = 0x00#8) ∧ (a.extractLsb' 2 4 = 0b0001#4 → offsetOf a = 0x04#8)) ∧
  (∀ s : State, s.noReset s.presented → s.engine.csrWe s.presented.irdy = false → ∃ t, step s = .next t ∧ t.csr = s.csr)

/-- Every other offset reads as the sentinel, whatever the state (R143); the row changes nothing else. -/
def Obligations.CsrUnmappedReadsAreSentinel : Prop :=
  (∀ (we re : Bool) (o : Offset) (s : State), o ≠ 0x00#8 → o ≠ 0x04#8 →
    exec (.csrRdOther we re o) s = .next { s with shown := { s.shown with csrRdata := 0xFFFFFFFF#32 } }) ∧
  ∀ (a : Word) (f : CsrFile), a.extractLsb' 2 4 ≠ 0b0000#4 → a.extractLsb' 2 4 ≠ 0b0001#4 →
    f.read (offsetOf a) = 0xFFFFFFFF#32

/-- A write replaces all 32 bits of the selected word, leaves the other, and changes nothing else (R144, R145); an edge with
`csr_we` at the offset does the same with `ad_in`, whatever `cbe` holds. -/
def Obligations.CsrMappedWrites : Prop :=
  (∀ (re : Bool) (v : Word) (s : State),
    exec (.csrWr00 re v) s = .next { s with csr := { cmd := v, stat := s.csr.stat } } ∧
    exec (.csrWr04 re v) s = .next { s with csr := { cmd := s.csr.cmd, stat := v } }) ∧
  ∀ s : State, s.noReset s.presented → s.engine.csrWe s.presented.irdy = true → ∃ t, step s = .next t ∧
    (s.engine.off = 0x00#8 → t.csr = { cmd := s.presented.adIn, stat := s.csr.stat }) ∧
    (s.engine.off = 0x04#8 → t.csr = { cmd := s.csr.cmd, stat := s.presented.adIn })

/-- A write to an unmapped offset changes no state (R146: decision D19). -/
def Obligations.CsrOtherWritesAreDropped : Prop :=
  ∀ (re : Bool) (o : Offset) (v : Word) (s : State), o ≠ 0x00#8 → o ≠ 0x04#8 → exec (.csrWrOther re o v) s = .next s

/-! ## The engine, step by step -/

/-- A claimed start (R168, R169: decision D7): in IDLE, a start with code 0010 or 0011 latches address and code and goes to
DECODE; flags and everything outside the engine are unchanged. -/
def Obligations.IdleStartIsClaimed : Prop :=
  ∀ (d sn wr : Bool) (ad : Word) (s : State), s.engine.st = .idle →
    exec (.idleLatchClaim d sn wr ad) s = .next { s with engine := { s.engine with
      st := .decode, addrLatch := ad, cmdLatch := if wr then 0b0011#4 else 0b0010#4 } }

/-- An ignored start (R168, R170): in IDLE, a start with any other code latches and stays in IDLE; the outputs stay idle and
everything outside the engine is unchanged. That the latch takes every code is decision D7 (90_conflicts.md C4,
assumption 18). -/
def Obligations.IdleStartIsIgnored : Prop :=
  ∀ (d sn : Bool) (c : Command) (ad : Word) (s : State), s.engine.st = .idle → c ≠ 0b0010#4 → c ≠ 0b0011#4 →
    ∃ t, exec (.idleLatchIgnore d sn c ad) s = .next t ∧
      t = { s with engine := { s.engine with st := .idle, addrLatch := ad, cmdLatch := c } } ∧
      t.engine.devsel = false ∧ t.engine.trdy = false ∧ t.engine.adOe = false

/-- No start (R171): the row changes nothing, and a step in IDLE without a start keeps the whole engine, whatever `cbe` and
the bus hold. -/
def Obligations.IdleHolds : Prop :=
  (∀ (d sn f i : Bool) (c : Command) (s : State), exec (.idleHold d sn f i c) s = .next s) ∧
  ∀ s : State, s.engine.st = .idle → (s.presented.frame && s.presented.irdy) = false →
    ∃ t, step s = .next t ∧ t.engine = s.engine

/-- The DECODE step (R172: decision D4): the device-ready flag is set, `irdy_seen` cleared, and the state is IO_READ for the
read code and IO_WRITE otherwise; no input is read and nothing else changes. -/
def Obligations.DecodeGoes : Prop :=
  ∀ (d sn f i : Bool) (c : Command) (s : State), s.engine.st = .decode →
    exec (.decodeGo d sn f i c) s = .next { s with engine := { s.engine with
      st := if s.engine.cmdLatch = 0b0010#4 then .ioRead else .ioWrite, devReady := true, irdySeen := false } }

/-- IO_READ (R173: decisions D5 and D6): with the gate open, the end row returns to IDLE with the flags cleared where
initiator-ready was seen before, and a wait row at any edge that is not an end edge stays and remembers initiator-ready;
nothing else changes, no register among them. -/
def Obligations.IoReadWaitsAndEnds : Prop :=
  ∀ s : State, s.engine.st = .ioRead → s.engine.devReady = true →
    (∀ c, s.engine.irdySeen = true →
      exec (.ioReadEnd c) s = .next { s with engine := { s.engine with
        st := .idle, devReady := false, irdySeen := false } }) ∧
    (∀ sn f i c, ¬(s.engine.irdySeen = true ∧ f = false ∧ i = false) →
      exec (.ioReadWait sn f i c) s = .next { s with engine := { s.engine with
        irdySeen := s.engine.irdySeen || i } })

/-- The store (R174: decision D10): in IO_WRITE with the gate open, the row stores the whole of `ad_in` into the word that
bits 5 to 2 of the latched address select, or nowhere for an index of 2 to 15, whatever `cbe` holds; nothing else changes. -/
def Obligations.IoWriteStores : Prop :=
  ∀ (sn f : Bool) (c : Command) (v : Word) (s : State), s.engine.st = .ioWrite → s.engine.devReady = true →
    ∃ t, exec (.ioWriteStore sn f c v) s = .next t ∧ t = { s with csr := t.csr } ∧
      t.csr = (if s.engine.addrLatch.extractLsb' 2 4 = 0b0000#4 then { cmd := v, stat := s.csr.stat }
        else if s.engine.addrLatch.extractLsb' 2 4 = 0b0001#4 then { cmd := s.csr.cmd, stat := v }
        else s.csr)

/-- IO_WRITE (R175: decisions D5 and D6): as in IO_READ. -/
def Obligations.IoWriteWaitsAndEnds : Prop :=
  ∀ s : State, s.engine.st = .ioWrite → s.engine.devReady = true →
    (∀ c, s.engine.irdySeen = true →
      exec (.ioWriteEnd c) s = .next { s with engine := { s.engine with
        st := .idle, devReady := false, irdySeen := false } }) ∧
    (∀ sn f i c, ¬(s.engine.irdySeen = true ∧ f = false ∧ i = false) →
      exec (.ioWriteWait sn f i c) s = .next { s with engine := { s.engine with
        irdySeen := s.engine.irdySeen || i } })

/-- The stall (R176: decision D6): the row changes nothing, and a step in an IO state with the gate closed keeps the engine
and stores nothing, whatever the inputs. -/
def Obligations.IoStalls : Prop :=
  (∀ (wr sn f i : Bool) (c : Command) (s : State), exec (.ioStall wr sn f i c) s = .next s) ∧
  ∀ s : State, (s.engine.st = .ioRead ∨ s.engine.st = .ioWrite) → s.engine.devReady = false →
    ∃ t, step s = .next t ∧ t.engine = s.engine ∧ (s.noReset s.presented → t.csr = s.csr)

/-- A row whose rule's condition on the state fails changes nothing (R12, R160; assumption 8): each of the eight rows that
can act, outside the state it acts in. -/
def Obligations.UnselectedStepRowsChangeNothing : Prop :=
  ∀ (d sn f i wr : Bool) (c : Command) (v : Word) (s : State),
    (s.engine.st ≠ .idle → exec (.idleLatchClaim d sn wr v) s = .next s ∧ exec (.idleLatchIgnore d sn c v) s = .next s) ∧
    (s.engine.st ≠ .decode → exec (.decodeGo d sn f i c) s = .next s) ∧
    (s.engine.st ≠ .ioRead ∨ s.engine.devReady = false →
      exec (.ioReadEnd c) s = .next s ∧ exec (.ioReadWait sn f i c) s = .next s) ∧
    (s.engine.st ≠ .ioWrite ∨ s.engine.devReady = false →
      exec (.ioWriteStore sn f c v) s = .next s ∧ exec (.ioWriteEnd c) s = .next s ∧
      exec (.ioWriteWait sn f i c) s = .next s)

/-- The graph of the engine's states (R45, R169 to R176, R178): IDLE is left only for DECODE and only by a start with an I/O
code; DECODE is always left, for the IO state of the latched code; an IO state is left only for IDLE, exactly at an end edge
with the gate open, and however long it has lasted (decisions D4 to D7). -/
def Obligations.PhaseGraph : Prop :=
  ∀ s : State, ∃ t, step s = .next t ∧
    (s.engine.st = .idle → t.engine.st =
      if s.presented.frame = true ∧ s.presented.irdy = true ∧
        (s.presented.cbe = 0b0010#4 ∨ s.presented.cbe = 0b0011#4) then .decode else .idle) ∧
    (s.engine.st = .decode → t.engine.st = if s.engine.cmdLatch = 0b0010#4 then .ioRead else .ioWrite) ∧
    (s.engine.st = .ioRead ∨ s.engine.st = .ioWrite → t.engine.st =
      if s.engine.devReady = true ∧ s.engine.irdySeen = true ∧ s.presented.frame = false ∧
        s.presented.irdy = false then .idle else s.engine.st)

/-- What a cycle shows (R161 to R165, R181; outputs as functions of the state by decision D1, `ad_out` when not driving by
D11): device-select outside IDLE, target-ready in an IO state with the gate open, the bus driven with the addressed word in
IO_READ with the gate open and zero otherwise; stop, parity-error, system-error and request never. -/
def Obligations.OutputsOfEachState : Prop :=
  ∀ s : State, ∃ t, step s = .next t ∧
    t.shown.stop = false ∧ t.shown.perr = false ∧ t.shown.serr = false ∧ t.shown.req = false ∧
    t.shown.cfgDout = s.cfg.dout ∧ t.shown.off = 0b00#2 ++ s.engine.addrLatch.extractLsb' 2 4 ++ 0b00#2 ∧
    t.shown.csrRdata = s.csr.read t.shown.off ∧
    (s.engine.st = .idle → t.shown.devsel = false ∧ t.shown.trdy = false ∧ t.shown.adOe = false ∧
      t.shown.csrRe = false ∧ t.shown.adOut = 0x00000000#32) ∧
    (s.engine.st = .decode → t.shown.devsel = true ∧ t.shown.trdy = false ∧ t.shown.adOe = false ∧
      t.shown.csrRe = false ∧ t.shown.adOut = 0x00000000#32) ∧
    (s.engine.st = .ioRead → t.shown.devsel = true ∧ t.shown.trdy = s.engine.devReady ∧
      t.shown.adOe = s.engine.devReady ∧ t.shown.csrRe = s.engine.devReady ∧
      t.shown.adOut = if s.engine.devReady then s.csr.read t.shown.off else 0x00000000#32) ∧
    (s.engine.st = .ioWrite → t.shown.devsel = true ∧ t.shown.trdy = s.engine.devReady ∧ t.shown.adOe = false ∧
      t.shown.csrRe = false ∧ t.shown.adOut = 0x00000000#32)

/-- Outputs in DECODE (R162). -/
def Obligations.DecodeClaimsTheTransaction : Prop :=
  ∀ s : State, s.engine.st = .decode → ∃ t, step s = .next t ∧
    t.shown.devsel = true ∧ t.shown.trdy = false ∧ t.shown.stop = false ∧ t.shown.adOe = false ∧ t.shown.csrRe = false

/-- The value of the shared bus in a cycle (R75; both drivers: no value, 93_implementation_defined.md U7, assumption 10). -/
def Obligations.SharedBusIsResolved : Prop :=
  ∀ s : State, ∃ t, step s = .next t ∧
    (s.engine.adOe = true → s.presented.adDrive = none → t.shown.bus = some t.shown.adOut) ∧
    (s.engine.adOe = false → ∀ v, s.presented.adDrive = some v → t.shown.bus = some v) ∧
    (s.engine.adOe = false → s.presented.adDrive = none → t.shown.bus = some 0xFFFFFFFF#32) ∧
    (s.engine.adOe = true → ∀ v, s.presented.adDrive = some v → t.shown.bus = none)

/-! ## Reset line -/

/-- The reset line does not reach the engine (R179): an edge takes the engine to the same state whether `rst` is asserted or
not. -/
def Obligations.RstNeverReachesEngine : Prop :=
  ∀ (s : State) (i : Sample) (is : List Sample) (b : Bool),
    ∃ t u, step { s with stim := i :: is } = .next t ∧ step { s with stim := { i with rst := b } :: is } = .next u ∧
      t.engine = u.engine

/-- `rst` at an edge (R263, R264: decision D13): where `RST_REGS` is true both register files take their reset values,
whatever else the edge does, and the engine makes its ordinary move; where it is false nothing differs from the same edge
without `rst`. -/
def Obligations.RstReloadsTheRegisterFiles : Prop :=
  (∀ (s : State) (i : Sample) (is : List Sample), i.rst = true → s.config.rstRegs = true →
    ∃ t, step { s with stim := i :: is } = .next t ∧
      t.csr.cmd = s.config.csrResetCmd ∧ t.csr.stat = s.config.csrResetStat ∧
      t.cfg = { s.cfg with command := 0x0000#16, dout := 0x00000000#32 } ∧ t.engine = s.engine.next i) ∧
  ∀ (s : State) (i : Sample) (is : List Sample) (b : Bool), s.config.rstRegs = false →
    step { s with stim := i :: is } = step { s with stim := { i with rst := b } :: is }

/-! ## Inputs that are not read, and independence -/

/-- `lock`, `idsel` and `gnt` change nothing; outside IDLE `cbe` changes nothing; in DECODE no bus input changes the engine
(R177, R93). -/
def Obligations.UnreadInputsChangeNothing : Prop :=
  ∀ (s : State) (i : Sample) (is : List Sample),
    (∀ l d g, step { s with stim := i :: is } =
      step { s with stim := { i with lock := l, idsel := d, gnt := g } :: is }) ∧
    (s.engine.st ≠ .idle → ∀ c, step { s with stim := i :: is } = step { s with stim := { i with cbe := c } :: is }) ∧
    (s.engine.st = .decode → ∀ f r c a, ∃ t u, step { s with stim := i :: is } = .next t ∧
      step { s with stim := { i with frame := f, irdy := r, cbe := c, adDrive := a } :: is } = .next u ∧
      t.engine = u.engine ∧ t.csr = u.csr)

/-- The configuration port and the bus act on disjoint state (R77): the port's inputs change nothing of the engine, the
Command/Status file or the bus, and the bus inputs change nothing of the Configuration file. -/
def Obligations.PortAndBusAreIndependent : Prop :=
  ∀ (s : State) (i : Sample) (is : List Sample), ∃ t, step { s with stim := i :: is } = .next t ∧
    (∀ we re o v, ∃ u,
      step { s with stim := { i with cfgWe := we, cfgRe := re, cfgAddr := o, cfgWdata := v } :: is } = .next u ∧
      u.engine = t.engine ∧ u.csr = t.csr ∧ u.shown.adOut = t.shown.adOut ∧ u.shown.bus = t.shown.bus) ∧
    (∀ f r c a, ∃ u,
      step { s with stim := { i with frame := f, irdy := r, cbe := c, adDrive := a } :: is } = .next u ∧
      u.cfg = t.cfg)

/-- Only bits 5 to 2 of an address take part (R61, R64, R217: decision D8): every address behaves as itself masked with
0x0000003C, in the offset, in what a read shows and in what a store writes. -/
def Obligations.OnlyTheIndexBitsSelect : Prop :=
  ∀ (a : Word) (s : State) (i : Sample) (is : List Sample),
    offsetOf a = offsetOf (a &&& 0x0000003C#32) ∧
    ∃ t u, step { s with engine := { s.engine with addrLatch := a }, stim := i :: is } = .next t ∧
      step { s with engine := { s.engine with addrLatch := a &&& 0x0000003C#32 }, stim := i :: is } = .next u ∧
      t.csr = u.csr ∧ t.cfg = u.cfg ∧ t.shown = u.shown ∧ t.engine.st = u.engine.st ∧
      t.engine.devReady = u.engine.devReady ∧ t.engine.irdySeen = u.engine.irdySeen

/-! ## Transactions -/

/-- An ignored command (R212): from IDLE, each of the fourteen latches address and code, takes one edge, and leaves the
register files, the pending stimulus and the idle outputs as they are. That the latch takes every code is decision D7
(90_conflicts.md C4, assumption 18); that the command is one edge whose own sample has the configuration port and `rst` at
rest, so that it leaves the pending stimulus and the register files, is assumption 7. -/
def Obligations.IgnoredCommandsOnlyLatch : Prop :=
  ∀ (a : Word) (p : Instr × Command), p ∈ ignoredCommands a → ∀ s : State, s.engine.st = .idle →
    ∃ t, exec p.1 s = .next t ∧
      t.engine = { s.engine with addrLatch := a, cmdLatch := p.2 } ∧
      t.csr = s.csr ∧ t.cfg = s.cfg ∧ t.config = s.config ∧ t.stim = s.stim ∧ t.cycle = s.cycle + 1 ∧
      t.shown.devsel = false ∧ t.shown.trdy = false ∧ t.shown.adOe = false ∧ t.shown.adOut = 0x00000000#32 ∧
      t.engine.devsel = false ∧ t.engine.trdy = false ∧ t.engine.adOe = false

/-- An I/O read from start to end (R210, R220): from IDLE, with the DECODE cycle `g` and a data phase `ds`, `e` pending and
`rst` deasserted, the command completes; its last cycle shows the addressed word (or the sentinel) with device-select,
target-ready and output-enable; the engine is back in IDLE with its outputs idle; no register word has changed, and neither
has the Configuration file where its port was idle. Rests on decisions D1, D4 to D8; that the pending samples are the data
phase is assumption 7. -/
def Obligations.IorReadsTheAddressedWord : Prop :=
  ∀ (a : Word) (s : State) (g : Sample) (ds : List Sample) (e : Sample) (rest : List Sample),
    s.engine.st = .idle → s.stim = g :: (ds ++ e :: rest) → isDataPhase ds e = true → noRst (g :: (ds ++ [e])) = true →
    ∃ t, exec (.ior a) s = .next t ∧
      t.engine = ⟨.idle, a, 0b0010#4, false, false⟩ ∧ t.csr = s.csr ∧ t.config = s.config ∧ t.stim = rest ∧
      t.cycle = s.cycle + ds.length + 3 ∧
      t.shown.adOut = (if a.extractLsb' 2 4 = 0b0000#4 then s.csr.cmd
        else if a.extractLsb' 2 4 = 0b0001#4 then s.csr.stat else 0xFFFFFFFF#32) ∧
      t.shown.devsel = true ∧ t.shown.trdy = true ∧ t.shown.adOe = true ∧
      t.engine.devsel = false ∧ t.engine.trdy = false ∧ t.engine.adOe = false ∧
      (cfgIdle (g :: (ds ++ [e])) = true → t.cfg = s.cfg)

/-- An I/O write from start to end (R211, R220): as the read, but the addressed word holds the `ad_in` of the last edge with
initiator-ready asserted (or nothing is stored for an index of 2 to 15), the other word is unchanged, and the bus is not
driven. Rests on decisions D1, D4 to D10 and assumption 7. -/
def Obligations.IowStoresTheLastData : Prop :=
  ∀ (a : Word) (s : State) (g : Sample) (ds : List Sample) (e : Sample) (rest : List Sample),
    s.engine.st = .idle → s.stim = g :: (ds ++ e :: rest) → isDataPhase ds e = true → noRst (g :: (ds ++ [e])) = true →
    ∃ t v, exec (.iow a) s = .next t ∧ lastData ds = some v ∧
      t.engine = ⟨.idle, a, 0b0011#4, false, false⟩ ∧
      t.csr = (if a.extractLsb' 2 4 = 0b0000#4 then { cmd := v, stat := s.csr.stat }
        else if a.extractLsb' 2 4 = 0b0001#4 then { cmd := s.csr.cmd, stat := v } else s.csr) ∧
      t.config = s.config ∧ t.stim = rest ∧ t.cycle = s.cycle + ds.length + 3 ∧
      t.shown.devsel = true ∧ t.shown.trdy = true ∧ t.shown.adOe = false ∧
      t.engine.devsel = false ∧ t.engine.trdy = false ∧ t.engine.adOe = false ∧
      (cfgIdle (g :: (ds ++ [e])) = true → t.cfg = s.cfg)

/-- Round trip (R218): a write and then a read of the same index, each a whole transaction, shows the written value for an
index of 0 or 1 and the sentinel for every other. That the pending samples are the data phases is assumption 7. -/
def Obligations.WriteThenReadRoundTrip : Prop :=
  ∀ (a b : Word) (s : State) (g g' : Sample) (ds ds' : List Sample) (e e' : Sample) (rest : List Sample),
    s.engine.st = .idle → a.extractLsb' 2 4 = b.extractLsb' 2 4 →
    s.stim = g :: (ds ++ e :: g' :: (ds' ++ e' :: rest)) →
    isDataPhase ds e = true → isDataPhase ds' e' = true →
    noRst (g :: (ds ++ [e])) = true → noRst (g' :: (ds' ++ [e'])) = true →
    ∃ t u v, exec (.iow a) s = .next t ∧ exec (.ior b) t = .next u ∧ lastData ds = some v ∧
      u.shown.adOut = if (a.extractLsb' 2 4).toNat < 2 then v else 0xFFFFFFFF#32

/-- A data phase that the initiator does not end lasts as long as the clock ticks (R215, R216, R178, R213): while no pending
edge is an end edge, the engine stays in its IO state with the gate open, device-select and target-ready asserted, and on a
read the bus driven with the same value, to the last of the pending edges. That the pending samples are the data phase, and
that the command stops where they run out, is assumption 7. -/
def Obligations.UnendedDataPhaseGoesOn : Prop :=
  ∀ (a : Word) (s : State) (g : Sample) (ds : List Sample),
    s.engine.st = .idle → s.stim = g :: ds → staysOpen false ds = true → noRst (g :: ds) = true →
    (∃ t, exec (.ior a) s = .next t ∧ t.stim = [] ∧ t.cycle = s.cycle + ds.length + 2 ∧
      t.engine = ⟨.ioRead, a, 0b0010#4, true, ds.any (·.irdy)⟩ ∧ t.csr = s.csr ∧
      t.engine.devsel = true ∧ t.engine.trdy = true ∧ t.engine.adOe = true ∧
      t.adOut = s.csr.read (offsetOf a) ∧ (ds ≠ [] → t.shown.adOut = t.adOut)) ∧
    (∃ t, exec (.iow a) s = .next t ∧ t.stim = [] ∧ t.cycle = s.cycle + ds.length + 2 ∧
      t.engine = ⟨.ioWrite, a, 0b0011#4, true, ds.any (·.irdy)⟩ ∧
      t.csr = (match lastData ds with | some v => s.csr.write (offsetOf a) v | none => s.csr) ∧
      t.engine.devsel = true ∧ t.engine.trdy = true ∧ t.engine.adOe = false)

/-- A command presented outside IDLE is no start (R239, R278): no latch takes its address or code, and it takes one edge. That
its sample passes like any other is assumption 7. -/
def Obligations.CommandOutsideIdleIsNoStart : Prop :=
  ∀ (a : Word) (p : Instr × Command), p ∈ busCommands a → ∀ s : State, s.engine.st ≠ .idle →
    ∃ t, exec p.1 s = .next t ∧ t.engine.addrLatch = s.engine.addrLatch ∧ t.engine.cmdLatch = s.engine.cmdLatch ∧
      t.engine.st ≠ .idle ∧ t.engine.st ≠ .decode ∧ t.cfg = s.cfg ∧ t.stim = s.stim ∧ t.cycle = s.cycle + 1

/-- No transaction reaches configuration space (R219): no command changes the Configuration file (where its own port is idle
and `rst` deasserted), nothing the bus shows, nor the engine, nor the Command/Status file, depends on what it holds, and the
configuration-read and configuration-write codes are ignored. That a command takes the pending samples as its data phase, so
that the port and `rst` are at rest where they are so in `stim`, is assumption 7; that its ignored start takes none of them is
too. -/
def Obligations.NoCommandReachesConfiguration : Prop :=
  ∀ (a : Word) (p : Instr × Command), p ∈ busCommands a → ∀ s : State, ∃ t, exec p.1 s = .next t ∧
    (cfgIdle s.stim = true → noRst s.stim = true → t.cfg = s.cfg) ∧
    (s.engine.st = .idle → p.2 = 0b1010#4 ∨ p.2 = 0b1011#4 → t.engine.st = .idle ∧ t.csr = s.csr ∧ t.stim = s.stim) ∧
    ∀ f : CfgFile, ∃ u, exec p.1 { s with cfg := f } = .next u ∧
      u.engine = t.engine ∧ u.csr = t.csr ∧ u.stim = t.stim ∧ u.shown.adOut = t.shown.adOut ∧ u.shown.bus = t.shown.bus

/-- The seven pseudo-operations, in cycles (R103: decision D23; R263: D13): from IDLE, the third edge of `IOW` stores, the third
cycle of `IOR` shows the word, the fourth edge of each ends it; `XCMD` with a code that is not claimed changes nothing but the
latches (D7); `NOP k` changes nothing; `CFGRD` leaves the read value on `cfg_dout` and `CFGWR` writes, each at its one edge;
`RST k` reloads both register files if `RST_REGS` and at least one edge has it, changes nothing otherwise, and never moves the
engine. That a program is put before the pending samples is assumption 12. -/
def Obligations.PseudoOperationsGiveTheirResults : Prop :=
  ∀ (s : State) (a d : Word) (o : Offset), s.engine.st = .idle →
    (∃ t u, Host.Core.run Sys2Proof.core 3 (s.load (PseudoOp.iow a d).expand) = .next t ∧
      t.csr = s.csr.write (offsetOf a) d ∧ step t = .next u ∧ u.engine.st = .idle ∧ u.csr = t.csr ∧ u.cfg = s.cfg ∧
      u.stim = s.stim) ∧
    (∃ t u, Host.Core.run Sys2Proof.core 3 (s.load (PseudoOp.ior a).expand) = .next t ∧
      t.shown.adOut = s.csr.read (offsetOf a) ∧ t.shown.trdy = true ∧ step t = .next u ∧ u.engine.st = .idle ∧
      u.csr = s.csr ∧ u.cfg = s.cfg ∧ u.stim = s.stim) ∧
    (∀ c : Command, c ≠ 0b0010#4 → c ≠ 0b0011#4 →
      ∃ t, Host.Core.run Sys2Proof.core 2 (s.load (PseudoOp.xcmd c a).expand) = .next t ∧
        t.engine = { s.engine with addrLatch := a, cmdLatch := c } ∧
        t.csr = s.csr ∧ t.cfg = s.cfg ∧ t.config = s.config ∧ t.stim = s.stim) ∧
    (∀ k : Nat, ∃ t, Host.Core.run Sys2Proof.core k (s.load (PseudoOp.nop k).expand) = .next t ∧
      t.engine = s.engine ∧ t.csr = s.csr ∧ t.cfg = s.cfg ∧ t.config = s.config ∧ t.stim = s.stim ∧
      t.cycle = s.cycle + k) ∧
    (∃ t, step (s.load (PseudoOp.cfgrd o).expand) = .next t ∧ t.cfg = { s.cfg with dout := s.cfg.read o } ∧
      t.engine = s.engine ∧ t.csr = s.csr ∧ t.stim = s.stim) ∧
    (∃ t, step (s.load (PseudoOp.cfgwr o d).expand) = .next t ∧ t.cfg = s.cfg.write o d ∧ t.engine = s.engine ∧
      t.csr = s.csr ∧ t.stim = s.stim) ∧
    (∀ k : Nat, ∃ t, Host.Core.run Sys2Proof.core k (s.load (PseudoOp.rst k).expand) = .next t ∧
      t.engine = s.engine ∧ t.config = s.config ∧ t.stim = s.stim ∧ t.cycle = s.cycle + k ∧
      (0 < k → s.config.rstRegs = true → t.csr = { cmd := s.config.csrResetCmd, stat := s.config.csrResetStat } ∧
        t.cfg = { s.cfg with command := 0x0000#16, dout := 0x00000000#32 }) ∧
      (k = 0 ∨ s.config.rstRegs = false → t.csr = s.csr ∧ t.cfg = s.cfg))
end

