-- ==== Sys2Proof/Laws/State.lean ====
section
/-! SUPPORT. One lemma per field of State for each update of it, so that no later proof unfolds a record update. -/

namespace Sys2Proof.Machine

variable (s : State)

/-! `showCycle` -/

@[simp] theorem showCycle_engine (i : Sample) : (s.showCycle i).engine = s.engine := rfl
@[simp] theorem showCycle_csr (i : Sample) : (s.showCycle i).csr = s.csr := rfl
@[simp] theorem showCycle_cfg (i : Sample) : (s.showCycle i).cfg = s.cfg := rfl
@[simp] theorem showCycle_config (i : Sample) : (s.showCycle i).config = s.config := rfl
@[simp] theorem showCycle_cycle (i : Sample) : (s.showCycle i).cycle = s.cycle := rfl
@[simp] theorem showCycle_stim (i : Sample) : (s.showCycle i).stim = s.stim := rfl

/-! `driveCsrRdata` -/

@[simp] theorem driveCsrRdata_engine (o : Offset) : (s.driveCsrRdata o).engine = s.engine := rfl
@[simp] theorem driveCsrRdata_csr (o : Offset) : (s.driveCsrRdata o).csr = s.csr := rfl
@[simp] theorem driveCsrRdata_cfg (o : Offset) : (s.driveCsrRdata o).cfg = s.cfg := rfl
@[simp] theorem driveCsrRdata_config (o : Offset) : (s.driveCsrRdata o).config = s.config := rfl
@[simp] theorem driveCsrRdata_cycle (o : Offset) : (s.driveCsrRdata o).cycle = s.cycle := rfl
@[simp] theorem driveCsrRdata_stim (o : Offset) : (s.driveCsrRdata o).stim = s.stim := rfl
@[simp] theorem driveCsrRdata_shown (o : Offset) : (s.driveCsrRdata o).shown = { s.shown with csrRdata := s.csr.read o } := rfl

/-! `driveCfgRdata` -/

@[simp] theorem driveCfgRdata_engine (o : Offset) : (s.driveCfgRdata o).engine = s.engine := rfl
@[simp] theorem driveCfgRdata_csr (o : Offset) : (s.driveCfgRdata o).csr = s.csr := rfl
@[simp] theorem driveCfgRdata_cfg (o : Offset) : (s.driveCfgRdata o).cfg = s.cfg := rfl
@[simp] theorem driveCfgRdata_config (o : Offset) : (s.driveCfgRdata o).config = s.config := rfl
@[simp] theorem driveCfgRdata_cycle (o : Offset) : (s.driveCfgRdata o).cycle = s.cycle := rfl
@[simp] theorem driveCfgRdata_stim (o : Offset) : (s.driveCfgRdata o).stim = s.stim := rfl
@[simp] theorem driveCfgRdata_shown (o : Offset) : (s.driveCfgRdata o).shown = { s.shown with cfgRdata := s.cfg.read o } := rfl

/-! `writeCsr` -/

@[simp] theorem writeCsr_engine (o : Offset) (v : Word) : (s.writeCsr o v).engine = s.engine := rfl
@[simp] theorem writeCsr_csr (o : Offset) (v : Word) : (s.writeCsr o v).csr = s.csr.write o v := rfl
@[simp] theorem writeCsr_cfg (o : Offset) (v : Word) : (s.writeCsr o v).cfg = s.cfg := rfl
@[simp] theorem writeCsr_config (o : Offset) (v : Word) : (s.writeCsr o v).config = s.config := rfl
@[simp] theorem writeCsr_cycle (o : Offset) (v : Word) : (s.writeCsr o v).cycle = s.cycle := rfl
@[simp] theorem writeCsr_stim (o : Offset) (v : Word) : (s.writeCsr o v).stim = s.stim := rfl
@[simp] theorem writeCsr_shown (o : Offset) (v : Word) : (s.writeCsr o v).shown = s.shown := rfl

/-! `writeCfg` -/

@[simp] theorem writeCfg_engine (o : Offset) (v : Word) : (s.writeCfg o v).engine = s.engine := rfl
@[simp] theorem writeCfg_csr (o : Offset) (v : Word) : (s.writeCfg o v).csr = s.csr := rfl
@[simp] theorem writeCfg_cfg (o : Offset) (v : Word) : (s.writeCfg o v).cfg = s.cfg.write o v := rfl
@[simp] theorem writeCfg_config (o : Offset) (v : Word) : (s.writeCfg o v).config = s.config := rfl
@[simp] theorem writeCfg_cycle (o : Offset) (v : Word) : (s.writeCfg o v).cycle = s.cycle := rfl
@[simp] theorem writeCfg_stim (o : Offset) (v : Word) : (s.writeCfg o v).stim = s.stim := rfl
@[simp] theorem writeCfg_shown (o : Offset) (v : Word) : (s.writeCfg o v).shown = s.shown := rfl

/-! `latchCfg` -/

@[simp] theorem latchCfg_engine (o : Offset) : (s.latchCfg o).engine = s.engine := rfl
@[simp] theorem latchCfg_csr (o : Offset) : (s.latchCfg o).csr = s.csr := rfl
@[simp] theorem latchCfg_cfg (o : Offset) : (s.latchCfg o).cfg = s.cfg.latch o := rfl
@[simp] theorem latchCfg_config (o : Offset) : (s.latchCfg o).config = s.config := rfl
@[simp] theorem latchCfg_cycle (o : Offset) : (s.latchCfg o).cycle = s.cycle := rfl
@[simp] theorem latchCfg_stim (o : Offset) : (s.latchCfg o).stim = s.stim := rfl
@[simp] theorem latchCfg_shown (o : Offset) : (s.latchCfg o).shown = s.shown := rfl

/-! `present` -/

@[simp] theorem present_engine (i : Sample) : (s.present i).engine = s.engine := rfl
@[simp] theorem present_csr (i : Sample) : (s.present i).csr = s.csr := rfl
@[simp] theorem present_cfg (i : Sample) : (s.present i).cfg = s.cfg := rfl
@[simp] theorem present_config (i : Sample) : (s.present i).config = s.config := rfl
@[simp] theorem present_cycle (i : Sample) : (s.present i).cycle = s.cycle := rfl
@[simp] theorem present_stim (i : Sample) : (s.present i).stim = i :: s.stim.tail := rfl
@[simp] theorem present_shown (i : Sample) : (s.present i).shown = s.shown := rfl

/-! `tick` -/

@[simp] theorem tick_engine : (s.tick).engine = s.engine := rfl
@[simp] theorem tick_csr : (s.tick).csr = s.csr := rfl
@[simp] theorem tick_cfg : (s.tick).cfg = s.cfg := rfl
@[simp] theorem tick_config : (s.tick).config = s.config := rfl
@[simp] theorem tick_cycle : (s.tick).cycle = s.cycle + 1 := rfl
@[simp] theorem tick_stim : (s.tick).stim = s.stim.tail := rfl
@[simp] theorem tick_shown : (s.tick).shown = s.shown := rfl

/-! `showCycle` leaves the two read muxes to their rows. -/

@[simp] theorem showCycle_csrRdata (i : Sample) : (s.showCycle i).shown.csrRdata = s.shown.csrRdata := rfl
@[simp] theorem showCycle_cfgRdata (i : Sample) : (s.showCycle i).shown.cfgRdata = s.shown.cfgRdata := rfl

/-! `moveEngine` -/

@[simp] theorem moveEngine_csr (g : Bool) (m : Engine → Engine) : (s.moveEngine g m).csr = s.csr := by
  unfold State.moveEngine; split <;> rfl
@[simp] theorem moveEngine_cfg (g : Bool) (m : Engine → Engine) : (s.moveEngine g m).cfg = s.cfg := by
  unfold State.moveEngine; split <;> rfl
@[simp] theorem moveEngine_config (g : Bool) (m : Engine → Engine) : (s.moveEngine g m).config = s.config := by
  unfold State.moveEngine; split <;> rfl
@[simp] theorem moveEngine_cycle (g : Bool) (m : Engine → Engine) : (s.moveEngine g m).cycle = s.cycle := by
  unfold State.moveEngine; split <;> rfl
@[simp] theorem moveEngine_stim (g : Bool) (m : Engine → Engine) : (s.moveEngine g m).stim = s.stim := by
  unfold State.moveEngine; split <;> rfl
@[simp] theorem moveEngine_shown (g : Bool) (m : Engine → Engine) : (s.moveEngine g m).shown = s.shown := by
  unfold State.moveEngine; split <;> rfl
@[simp] theorem moveEngine_engine (g : Bool) (m : Engine → Engine) :
    (s.moveEngine g m).engine = if g then m s.engine else s.engine := by
  unfold State.moveEngine; split <;> rfl
/-- A rule whose guard fails changes nothing. -/
theorem moveEngine_false (m : Engine → Engine) : s.moveEngine false m = s := rfl
/-- A rule whose guard holds moves the engine and nothing else. -/
theorem moveEngine_true (m : Engine → Engine) : s.moveEngine true m = { s with engine := m s.engine } := rfl

/-! `applyRst` -/

@[simp] theorem applyRst_engine (i : Sample) : (s.applyRst i).engine = s.engine := by
  unfold State.applyRst; split <;> rfl
@[simp] theorem applyRst_config (i : Sample) : (s.applyRst i).config = s.config := by
  unfold State.applyRst; split <;> rfl
@[simp] theorem applyRst_cycle (i : Sample) : (s.applyRst i).cycle = s.cycle := by
  unfold State.applyRst; split <;> rfl
@[simp] theorem applyRst_stim (i : Sample) : (s.applyRst i).stim = s.stim := by
  unfold State.applyRst; split <;> rfl
@[simp] theorem applyRst_shown (i : Sample) : (s.applyRst i).shown = s.shown := by
  unfold State.applyRst; split <;> rfl
@[simp] theorem applyRst_csr (i : Sample) :
    (s.applyRst i).csr = if i.rst && s.config.rstRegs then CsrFile.reset s.config else s.csr := by
  unfold State.applyRst; split <;> rfl
@[simp] theorem applyRst_cfg (i : Sample) :
    (s.applyRst i).cfg = if i.rst && s.config.rstRegs then s.cfg.applyReset else s.cfg := by
  unfold State.applyRst; split <;> rfl
/-- Without an acting reset nothing changes. -/
theorem applyRst_noReset (i : Sample) (h : (i.rst && s.config.rstRegs) = false) : s.applyRst i = s := by
  simp [State.applyRst, h]

/-! `presented` -/

@[simp] theorem presented_cons (i : Sample) (is : List Sample) (h : s.stim = i :: is) : s.presented = i := by
  simp [State.presented, h]
theorem presented_present (i : Sample) : (s.present i).presented = i := rfl

end Sys2Proof.Machine
end

