-- ==== Sys2Proof/Laws/Files.lean ====
section
/-! SUPPORT. What the register files and the offset computation can do, said once: reads after writes, and what each
operation leaves alone. -/

namespace Sys2Proof.Machine

/-! ## Command/Status file -/

@[simp] theorem CsrFile.read_cmd (f : CsrFile) : f.read 0x00#8 = f.cmd := rfl
@[simp] theorem CsrFile.read_stat (f : CsrFile) : f.read 0x04#8 = f.stat := rfl

/-- An unmapped offset reads as the sentinel. -/
theorem CsrFile.read_unmapped (f : CsrFile) (o : Offset) (h : isCsrMapped o = false) : f.read o = sentinel := by
  simp only [isCsrMapped, Bool.or_eq_false_iff, decide_eq_false_iff_not] at h
  simp [CsrFile.read, h]

@[simp] theorem CsrFile.write_cmd (f : CsrFile) (v : Word) : f.write 0x00#8 v = { f with cmd := v } := rfl
@[simp] theorem CsrFile.write_stat (f : CsrFile) (v : Word) : f.write 0x04#8 v = { f with stat := v } := rfl

/-- A write to an unmapped offset is dropped. -/
theorem CsrFile.write_unmapped (f : CsrFile) (o : Offset) (v : Word) (h : isCsrMapped o = false) : f.write o v = f := by
  simp only [isCsrMapped, Bool.or_eq_false_iff, decide_eq_false_iff_not] at h
  simp [CsrFile.write, h]

/-- A mapped word reads back as written. -/
theorem CsrFile.read_write_same (f : CsrFile) (o : Offset) (v : Word) (h : isCsrMapped o = true) :
    (f.write o v).read o = v := by
  simp only [isCsrMapped, Bool.or_eq_true, decide_eq_true_eq] at h
  rcases h with rfl | rfl <;> rfl

/-- A write leaves every other offset alone. -/
theorem CsrFile.read_write_other (f : CsrFile) (o p : Offset) (v : Word) (h : p ≠ o) : (f.write o v).read p = f.read p := by
  by_cases h0 : o = 0x00#8
  · subst h0; simp [CsrFile.write, CsrFile.read, h]
  by_cases h4 : o = 0x04#8
  · subst h4; simp [CsrFile.write, CsrFile.read, h]
  simp [CsrFile.write, h0, h4]

/-- The last write to an offset wins. -/
theorem CsrFile.write_write (f : CsrFile) (o : Offset) (v w : Word) : (f.write o v).write o w = f.write o w := by
  unfold CsrFile.write
  split
  · rfl
  · split <;> rfl

/-! ## Configuration file -/

@[simp] theorem CfgFile.read_id (f : CfgFile) : f.read 0x00#8 = f.idWord := rfl
@[simp] theorem CfgFile.read_command (f : CfgFile) : f.read 0x04#8 = f.commandWord := rfl
@[simp] theorem CfgFile.read_class (f : CfgFile) : f.read 0x08#8 = f.classWord := rfl
@[simp] theorem CfgFile.read_misc (f : CfgFile) : f.read 0x0C#8 = f.miscWord := rfl

/-- An unmapped offset reads as the sentinel. -/
theorem CfgFile.read_unmapped (f : CfgFile) (o : Offset) (h : isCfgMapped o = false) : f.read o = sentinel := by
  simp only [isCfgMapped, Bool.or_eq_false_iff, decide_eq_false_iff_not] at h
  simp [CfgFile.read, h]

/-- Every read depends on the command field and the fixed fields only, so the latch does not disturb it. -/
@[simp] theorem CfgFile.read_latch (f : CfgFile) (o p : Offset) : (f.latch o).read p = f.read p := rfl

@[simp] theorem CfgFile.write_command (f : CfgFile) (v : Word) :
    f.write 0x04#8 v = { f with command := commandOperand v } := rfl

/-- A write to any offset but 0x04 is dropped. -/
theorem CfgFile.write_other (f : CfgFile) (o : Offset) (v : Word) (h : o ≠ 0x04#8) : f.write o v = f := by
  simp [CfgFile.write, h]


end Sys2Proof.Machine
end

