-- ==== Sys2Proof/Laws/PerInstr.lean ====
section
/-! SUPPORT. Statements about every operation, one lemma per constructor. -/

namespace Sys2Proof.Laws.WordMatchesRow

/-- The word of an operation fits the mask and match of its row of the table, and its slot is of the row's format (R104). -/
def Statement (i : Instr) : Prop :=
  ∃ r, rowOf i.row = some r ∧ r.fits i.word = true ∧ r.format = i.slot.format

theorem ign0000 (addr : Word) :
    Statement (.ign0000 addr) := ⟨_, rfl, by simp only [Instr.word]; decide, rfl⟩
theorem ign0001 (addr : Word) :
    Statement (.ign0001 addr) := ⟨_, rfl, by simp only [Instr.word]; decide, rfl⟩
theorem ior (addr : Word) :
    Statement (.ior addr) := ⟨_, rfl, by simp only [Instr.word]; decide, rfl⟩
theorem iow (addr : Word) :
    Statement (.iow addr) := ⟨_, rfl, by simp only [Instr.word]; decide, rfl⟩
theorem ign0100 (addr : Word) :
    Statement (.ign0100 addr) := ⟨_, rfl, by simp only [Instr.word]; decide, rfl⟩
theorem ign0101 (addr : Word) :
    Statement (.ign0101 addr) := ⟨_, rfl, by simp only [Instr.word]; decide, rfl⟩
theorem ign0110 (addr : Word) :
    Statement (.ign0110 addr) := ⟨_, rfl, by simp only [Instr.word]; decide, rfl⟩
theorem ign0111 (addr : Word) :
    Statement (.ign0111 addr) := ⟨_, rfl, by simp only [Instr.word]; decide, rfl⟩
theorem ign1000 (addr : Word) :
    Statement (.ign1000 addr) := ⟨_, rfl, by simp only [Instr.word]; decide, rfl⟩
theorem ign1001 (addr : Word) :
    Statement (.ign1001 addr) := ⟨_, rfl, by simp only [Instr.word]; decide, rfl⟩
theorem ign1010 (addr : Word) :
    Statement (.ign1010 addr) := ⟨_, rfl, by simp only [Instr.word]; decide, rfl⟩
theorem ign1011 (addr : Word) :
    Statement (.ign1011 addr) := ⟨_, rfl, by simp only [Instr.word]; decide, rfl⟩
theorem ign1100 (addr : Word) :
    Statement (.ign1100 addr) := ⟨_, rfl, by simp only [Instr.word]; decide, rfl⟩
theorem ign1101 (addr : Word) :
    Statement (.ign1101 addr) := ⟨_, rfl, by simp only [Instr.word]; decide, rfl⟩
theorem ign1110 (addr : Word) :
    Statement (.ign1110 addr) := ⟨_, rfl, by simp only [Instr.word]; decide, rfl⟩
theorem ign1111 (addr : Word) :
    Statement (.ign1111 addr) := ⟨_, rfl, by simp only [Instr.word]; decide, rfl⟩
theorem idleLatchClaim (devReady : Bool) (irdySeen : Bool) (isWrite : Bool) (adIn : Word) :
    Statement (.idleLatchClaim devReady irdySeen isWrite adIn) := ⟨_, rfl, by simp only [Instr.word]; revert devReady irdySeen isWrite; decide, rfl⟩
theorem idleLatchIgnore (devReady : Bool) (irdySeen : Bool) (cbe : Command) (adIn : Word) :
    Statement (.idleLatchIgnore devReady irdySeen cbe adIn) := ⟨_, rfl, by simp only [Instr.word]; revert devReady irdySeen cbe; decide, rfl⟩
theorem idleHold (devReady : Bool) (irdySeen : Bool) (frame : Bool) (irdy : Bool) (cbe : Command) :
    Statement (.idleHold devReady irdySeen frame irdy cbe) := ⟨_, rfl, by simp only [Instr.word]; revert devReady irdySeen frame irdy cbe; decide, rfl⟩
theorem decodeGo (devReady : Bool) (irdySeen : Bool) (frame : Bool) (irdy : Bool) (cbe : Command) :
    Statement (.decodeGo devReady irdySeen frame irdy cbe) := ⟨_, rfl, by simp only [Instr.word]; revert devReady irdySeen frame irdy cbe; decide, rfl⟩
theorem ioReadEnd (cbe : Command) :
    Statement (.ioReadEnd cbe) := ⟨_, rfl, by simp only [Instr.word]; revert cbe; decide, rfl⟩
theorem ioReadWait (irdySeen : Bool) (frame : Bool) (irdy : Bool) (cbe : Command) :
    Statement (.ioReadWait irdySeen frame irdy cbe) := ⟨_, rfl, by simp only [Instr.word]; revert irdySeen frame irdy cbe; decide, rfl⟩
theorem ioWriteStore (irdySeen : Bool) (frame : Bool) (cbe : Command) (adIn : Word) :
    Statement (.ioWriteStore irdySeen frame cbe adIn) := ⟨_, rfl, by simp only [Instr.word]; revert irdySeen frame cbe; decide, rfl⟩
theorem ioWriteEnd (cbe : Command) :
    Statement (.ioWriteEnd cbe) := ⟨_, rfl, by simp only [Instr.word]; revert cbe; decide, rfl⟩
theorem ioWriteWait (irdySeen : Bool) (frame : Bool) (irdy : Bool) (cbe : Command) :
    Statement (.ioWriteWait irdySeen frame irdy cbe) := ⟨_, rfl, by simp only [Instr.word]; revert irdySeen frame irdy cbe; decide, rfl⟩
theorem ioStall (isWrite : Bool) (irdySeen : Bool) (frame : Bool) (irdy : Bool) (cbe : Command) :
    Statement (.ioStall isWrite irdySeen frame irdy cbe) := ⟨_, rfl, by simp only [Instr.word]; revert isWrite irdySeen frame irdy cbe; decide, rfl⟩
theorem cfgRd00 (we : Bool) (re : Bool) :
    Statement (.cfgRd00 we re) := ⟨_, rfl, by simp only [Instr.word]; revert we re; decide, rfl⟩
theorem cfgRd04 (we : Bool) (re : Bool) :
    Statement (.cfgRd04 we re) := ⟨_, rfl, by simp only [Instr.word]; revert we re; decide, rfl⟩
theorem cfgRd08 (we : Bool) (re : Bool) :
    Statement (.cfgRd08 we re) := ⟨_, rfl, by simp only [Instr.word]; revert we re; decide, rfl⟩
theorem cfgRd0C (we : Bool) (re : Bool) :
    Statement (.cfgRd0C we re) := ⟨_, rfl, by simp only [Instr.word]; revert we re; decide, rfl⟩
theorem cfgRdOther (we : Bool) (re : Bool) (addr : Offset) :
    Statement (.cfgRdOther we re addr) := ⟨_, rfl, by simp only [Instr.word]; revert we re addr; decide, rfl⟩
theorem cfgLatch (we : Bool) (addr : Offset) :
    Statement (.cfgLatch we addr) := ⟨_, rfl, by simp only [Instr.word]; revert we addr; decide, rfl⟩
theorem cfgWr04 (re : Bool) (wdata : Word) :
    Statement (.cfgWr04 re wdata) := ⟨_, rfl, by simp only [Instr.word]; revert re; decide, rfl⟩
theorem cfgWrOther (re : Bool) (addr : Offset) (wdata : Word) :
    Statement (.cfgWrOther re addr wdata) := ⟨_, rfl, by simp only [Instr.word]; revert re addr; decide, rfl⟩
theorem cfgHold (addr : Offset) :
    Statement (.cfgHold addr) := ⟨_, rfl, by simp only [Instr.word]; revert addr; decide, rfl⟩
theorem csrRd00 (we : Bool) (re : Bool) :
    Statement (.csrRd00 we re) := ⟨_, rfl, by simp only [Instr.word]; revert we re; decide, rfl⟩
theorem csrRd04 (we : Bool) (re : Bool) :
    Statement (.csrRd04 we re) := ⟨_, rfl, by simp only [Instr.word]; revert we re; decide, rfl⟩
theorem csrRdOther (we : Bool) (re : Bool) (off : Offset) :
    Statement (.csrRdOther we re off) := ⟨_, rfl, by simp only [Instr.word]; revert we re off; decide, rfl⟩
theorem csrWr00 (re : Bool) (wdata : Word) :
    Statement (.csrWr00 re wdata) := ⟨_, rfl, by simp only [Instr.word]; revert re; decide, rfl⟩
theorem csrWr04 (re : Bool) (wdata : Word) :
    Statement (.csrWr04 re wdata) := ⟨_, rfl, by simp only [Instr.word]; revert re; decide, rfl⟩
theorem csrWrOther (re : Bool) (off : Offset) (wdata : Word) :
    Statement (.csrWrOther re off wdata) := ⟨_, rfl, by simp only [Instr.word]; revert re off; decide, rfl⟩

end Sys2Proof.Laws.WordMatchesRow
end

