-- ==== Sys2Proof/Laws/Rows.lean ====
section
/-! SUPPORT. What each slot of an edge does when its selected row runs: one lemma per slot, cited in place of the decoder and
the meanings. -/

namespace Sys2Proof.Machine

/-! ## Fields of packed words -/

@[simp] theorem phaseOf_phaseCode (p : Phase) : phaseOf (phaseCode p) = p := by cases p <;> rfl

@[simp] theorem packStep_phase (p : Phase) (d sn f i : Bool) (c : Command) :
    (packStep p d sn f i c).extractLsb' 8 2 = phaseCode p := by
  revert p d sn f i c
  intro p; cases p <;> decide
theorem packStep_devReady (p : Phase) (d sn f i : Bool) (c : Command) :
    (packStep p d sn f i c).getLsbD 7 = d := by
  revert d sn f i c; cases p <;> decide
@[simp] theorem packStep_devReady_bit (p : Phase) (d sn f i : Bool) (c : Command) :
    (packStep p d sn f i c)[7] = d := by
  revert d sn f i c; cases p <;> decide
theorem packStep_irdySeen (p : Phase) (d sn f i : Bool) (c : Command) :
    (packStep p d sn f i c).getLsbD 6 = sn := by
  revert d sn f i c; cases p <;> decide
@[simp] theorem packStep_irdySeen_bit (p : Phase) (d sn f i : Bool) (c : Command) :
    (packStep p d sn f i c)[6] = sn := by
  revert d sn f i c; cases p <;> decide
theorem packStep_frame (p : Phase) (d sn f i : Bool) (c : Command) :
    (packStep p d sn f i c).getLsbD 5 = f := by
  revert d sn f i c; cases p <;> decide
@[simp] theorem packStep_frame_bit (p : Phase) (d sn f i : Bool) (c : Command) :
    (packStep p d sn f i c)[5] = f := by
  revert d sn f i c; cases p <;> decide
theorem packStep_irdy (p : Phase) (d sn f i : Bool) (c : Command) :
    (packStep p d sn f i c).getLsbD 4 = i := by
  revert d sn f i c; cases p <;> decide
@[simp] theorem packStep_irdy_bit (p : Phase) (d sn f i : Bool) (c : Command) :
    (packStep p d sn f i c)[4] = i := by
  revert d sn f i c; cases p <;> decide
@[simp] theorem packStep_cbe (p : Phase) (d sn f i : Bool) (c : Command) : cbeField (packStep p d sn f i c) = c := by
  revert d sn f i c; cases p <;> decide

theorem packPort_we (we re : Bool) (o : Offset) : (packPort we re o).getLsbD 9 = we := by
  revert we re o; decide
@[simp] theorem packPort_we_bit (we re : Bool) (o : Offset) : (packPort we re o)[9] = we := by
  revert we re o; decide
theorem packPort_re (we re : Bool) (o : Offset) : (packPort we re o).getLsbD 8 = re := by
  revert we re o; decide
@[simp] theorem packPort_re_bit (we re : Bool) (o : Offset) : (packPort we re o)[8] = re := by
  revert we re o; decide
@[simp] theorem packPort_offset (we re : Bool) (o : Offset) : offsetField (packPort we re o) = o := by
  revert we re o; decide

/-! ## Slots -/

/-- The Configuration read mux drives the value of the offset, whichever row it is. -/
theorem exec_cfgMux (w : PortWord) (s : State) :
    exec (decodeCfgMux w) s = .next (s.driveCfgRdata (offsetField w)) := by
  unfold decodeCfgMux
  dsimp only
  split; · next h => rw [h]; rfl
  split; · next h => rw [h]; rfl
  split; · next h => rw [h]; rfl
  split; · next h => rw [h]; rfl
  rfl

/-- The Command/Status read mux drives the value of the offset, whichever row it is. -/
theorem exec_csrMux (w : PortWord) (s : State) :
    exec (decodeCsrMux w) s = .next (s.driveCsrRdata (offsetField w)) := by
  unfold decodeCsrMux
  dsimp only
  split; · next h => rw [h]; rfl
  split; · next h => rw [h]; rfl
  rfl

/-- The latch slot: a load, a hold, or (in a write-only cycle) nothing. -/
theorem decodeCfgLatch_packPort (we re : Bool) (o : Offset) :
    decodeCfgLatch (packPort we re o) =
      if re then .ok (.cfgLatch we o) else if we then .error .noLatch else .ok (.cfgHold o) := by
  simp only [decodeCfgLatch, packPort_we, packPort_re, packPort_offset]

/-- The Configuration write slot writes whatever the offset is; with the enable 0 it selects nothing. -/
theorem exec_cfgWrite (w : PortWord) (d : Word) (r : Instr) (s : State) (h : decodeCfgWrite w d = .ok r) :
    exec r s = .next (s.writeCfg (offsetField w) d) := by
  unfold decodeCfgWrite at h
  split at h
  · split at h
    · next ho => cases h; rw [ho]; rfl
    · cases h; rfl
  · cases h

/-- The Command/Status write slot writes whatever the offset is; with the enable 0 it selects nothing. -/
theorem exec_csrWrite (w : PortWord) (d : Word) (r : Instr) (s : State) (h : decodeCsrWrite w d = .ok r) :
    exec r s = .next (s.writeCsr (offsetField w) d) := by
  unfold decodeCsrWrite at h
  split at h
  · split at h
    · next ho => cases h; rw [ho]; rfl
    · split at h
      · next ho => cases h; rw [ho]; rfl
      · cases h; rfl
  · cases h

/-- The transition slot: the engine makes the move of the reference listing, and nothing else of the state changes. The
step-select word is the one of the state and the sample. -/
theorem exec_transition (i : Sample) (s : State) :
    exec (decodeTransition (s.stepWord i) i.adIn) s = .next { s with engine := s.engine.next i } := by
  obtain ⟨e, csr, cfg, config, cycle, stim, shown⟩ := s
  obtain ⟨st, addr, cmd, d, sn⟩ := e
  unfold decodeTransition State.stepWord
  simp only [packStep_phase, packStep_devReady, packStep_irdySeen, packStep_frame, packStep_irdy, packStep_cbe,
    phaseOf_phaseCode]
  cases st with
  | idle =>
    dsimp only [Engine.next]
    by_cases hs : (i.frame && i.irdy) = true
    · simp only [hs, if_true]
      by_cases hr : i.cbe = ioReadCode
      · simp only [hr]; rfl
      · by_cases hw : i.cbe = ioWriteCode
        · simp only [hw]; rfl
        · simp [hr, hw, exec, execIdleLatchIgnore, State.moveEngine, Engine.latch, claims]
    · simp only [hs]
      rfl
  | decode => rfl
  | ioRead =>
    cases d with
    | false => rfl
    | true =>
      by_cases he : endBits sn i.frame i.irdy = true
      · simp only [endBits, Bool.and_eq_true, Bool.not_eq_true'] at he
        obtain ⟨⟨rfl, hf⟩, hi⟩ := he
        simp only [Engine.next, hf, hi]; rfl
      · simp only [Bool.not_eq_true] at he
        have he' := he
        unfold endBits at he'
        simp [he, he', exec, execIoReadWait, State.moveEngine, Engine.next, Engine.wait, endsStay, seenAfter]
  | ioWrite =>
    cases d with
    | false => rfl
    | true =>
      by_cases he : endBits sn i.frame i.irdy = true
      · simp only [endBits, Bool.and_eq_true, Bool.not_eq_true'] at he
        obtain ⟨⟨rfl, hf⟩, hi⟩ := he
        simp only [Engine.next, hf, hi]; rfl
      · simp only [Bool.not_eq_true] at he
        have he' := he
        unfold endBits at he'
        simp [he, he', exec, execIoWriteWait, State.moveEngine, Engine.next, Engine.wait, endsStay, seenAfter]

/-- The store slot: selected exactly when the engine asserts the write-enable, and then it writes `ad_in` at `off`. -/
theorem decodeStore_stepWord (i : Sample) (s : State) :
    decodeStore (s.stepWord i) i.adIn =
      if s.engine.csrWe i.irdy then .ok (.ioWriteStore s.engine.irdySeen i.frame i.cbe i.adIn) else .error .noStore := by
  unfold decodeStore State.stepWord
  simp only [packStep_phase, packStep_devReady, packStep_irdySeen, packStep_frame, packStep_irdy, packStep_cbe,
    phaseOf_phaseCode]
  unfold Engine.csrWe
  cases s.engine.st <;> simp

/-! ## Running the rows of an edge -/

/-- The rows of an edge, slot by slot: both read muxes and the transition always, the others where they are selected. -/
theorem selectedRows_eq (i : Sample) (s : State) :
    s.selectedRows i =
      decodeCsrMux (s.csrWord i) :: decodeCfgMux (Sample.cfgWord i) ::
      ((decodeCfgLatch (Sample.cfgWord i)).toOption.toList ++
      ((decodeCfgWrite (Sample.cfgWord i) i.cfgWdata).toOption.toList ++
      ((decodeCsrWrite (s.csrWord i) i.adIn).toOption.toList ++
      ((decodeStore (s.stepWord i) i.adIn).toOption.toList ++ [decodeTransition (s.stepWord i) i.adIn])))) := by
  simp only [State.selectedRows, edgeSlots, List.filterMap_cons, List.filterMap_nil, decodeWord, State.slotWord,
    slotOperand, Except.toOption]
  cases decodeCfgLatch (Sample.cfgWord i) <;> cases decodeCfgWrite (Sample.cfgWord i) i.cfgWdata <;>
    cases decodeCsrWrite (s.csrWord i) i.adIn <;> cases decodeStore (s.stepWord i) i.adIn <;> rfl

/-- A row that answers `t` is followed by the rest from `t`. -/
theorem runRows_cons {r : Instr} {s t : State} (rs : List Instr) (h : exec r s = .next t) :
    runRows (r :: rs) s = runRows rs t := by
  simp only [runRows, h]

/-- A slot that may select nothing. -/
theorem runRows_slot {o : Except DecodeError Instr} {s t : State} (rs : List Instr)
    (hok : ∀ r, o = .ok r → exec r s = .next t) (herr : ∀ e, o = .error e → t = s) :
    runRows (o.toOption.toList ++ rs) s = runRows rs t := by
  cases o with
  | error e => rw [herr e rfl]; rfl
  | ok r => exact runRows_cons _ (hok r rfl)

/-- The latch slot of an edge loads the latch exactly when `cfg_re` is asserted (R126, R130). -/
theorem runRows_cfgLatch (i : Sample) (rs : List Instr) (s : State) :
    runRows ((decodeCfgLatch (Sample.cfgWord i)).toOption.toList ++ rs) s =
      runRows rs (if i.cfgRe then s.latchCfg i.cfgAddr else s) := by
  apply runRows_slot
  · intro r hr
    rw [Sample.cfgWord, decodeCfgLatch_packPort] at hr
    split at hr
    · next h => cases hr; rw [if_pos h]; rfl
    · next h =>
      split at hr
      · cases hr
      · cases hr; rw [if_neg h]; rfl
  · intro e hr
    rw [Sample.cfgWord, decodeCfgLatch_packPort] at hr
    split at hr
    · cases hr
    · next h => rw [if_neg h]

/-- The Configuration write slot of an edge writes exactly when `cfg_we` is asserted (R127, R128). -/
theorem runRows_cfgWrite (i : Sample) (rs : List Instr) (s : State) :
    runRows ((decodeCfgWrite (Sample.cfgWord i) i.cfgWdata).toOption.toList ++ rs) s =
      runRows rs (if i.cfgWe then s.writeCfg i.cfgAddr i.cfgWdata else s) := by
  have ho : offsetField (Sample.cfgWord i) = i.cfgAddr := packPort_offset ..
  cases hw : i.cfgWe with
  | false =>
    apply runRows_slot
    · intro r hr; simp [decodeCfgWrite, Sample.cfgWord, hw] at hr
    · intro e _; rfl
  | true =>
    apply runRows_slot
    · intro r hr; rw [exec_cfgWrite _ _ _ _ hr, ho]; rfl
    · intro e hr
      simp only [decodeCfgWrite, Sample.cfgWord, packPort_we, hw, if_true] at hr
      split at hr <;> cases hr

/-- The Command/Status write slot of an edge writes exactly when the engine asserts `csr_we` (R144 to R146, R174). -/
theorem runRows_csrWrite (i : Sample) (e : State) (rs : List Instr) (s : State) :
    runRows ((decodeCsrWrite (e.csrWord i) i.adIn).toOption.toList ++ rs) s =
      runRows rs (if e.engine.csrWe i.irdy then s.writeCsr e.engine.off i.adIn else s) := by
  have ho : offsetField (e.csrWord i) = e.engine.off := packPort_offset ..
  cases hw : e.engine.csrWe i.irdy with
  | false =>
    apply runRows_slot
    · intro r hr; simp [decodeCsrWrite, State.csrWord, hw] at hr
    · intro e _; rfl
  | true =>
    apply runRows_slot
    · intro r hr; rw [exec_csrWrite _ _ _ _ hr, ho]; rfl
    · intro _ hr
      simp only [decodeCsrWrite, State.csrWord, packPort_we, hw, if_true] at hr
      split at hr
      · cases hr
      · split at hr <;> cases hr

/-- A write-enable is asserted only at an edge with `irdy`. -/
theorem csrWe_irdy {e : Engine} {irdy : Bool} (h : e.csrWe irdy = true) : e.csrWe true = true := by
  unfold Engine.csrWe at h ⊢
  cases hs : e.st <;> simp_all

/-- The store slot of an edge writes `ad_in` at `off` exactly when the engine asserts `csr_we` (R174). -/
theorem runRows_store (i : Sample) (e : State) (rs : List Instr) (s : State) (h : s.engine = e.engine) :
    runRows ((decodeStore (e.stepWord i) i.adIn).toOption.toList ++ rs) s =
      runRows rs (if e.engine.csrWe i.irdy then s.writeCsr e.engine.off i.adIn else s) := by
  apply runRows_slot
  · intro r hr
    rw [decodeStore_stepWord] at hr
    split at hr
    · next hw =>
      cases hr
      simp only [exec, execIoWriteStore, h, csrWe_irdy hw, hw, if_true]
    · cases hr
  · intro _ hr
    rw [decodeStore_stepWord] at hr
    split at hr
    · cases hr
    · next hw => rw [if_neg hw]

end Sys2Proof.Machine
end

