-- ==== Sys2Proof/Laws/Transactions.lean ====
section
/-! SUPPORT. What one clock edge of the reference listing does to each part of the state, and how a transaction unrolls into
edges. -/

namespace Sys2Proof.Machine

variable (s : State) (i : Sample)

@[simp] theorem clockEdge_engine : (s.clockEdge i).engine = s.engine.next i := applyRst_engine _ _
@[simp] theorem clockEdge_config : (s.clockEdge i).config = s.config := applyRst_config _ _
@[simp] theorem clockEdge_cycle : (s.clockEdge i).cycle = s.cycle + 1 := applyRst_cycle _ _
@[simp] theorem clockEdge_stim : (s.clockEdge i).stim = s.stim := applyRst_stim _ _
@[simp] theorem clockEdge_csr :
    (s.clockEdge i).csr = if i.rst && s.config.rstRegs then CsrFile.reset s.config else s.csrNext i := applyRst_csr _ _
@[simp] theorem clockEdge_cfg :
    (s.clockEdge i).cfg = if i.rst && s.config.rstRegs then (s.cfg.next i).applyReset else s.cfg.next i :=
  applyRst_cfg _ _
@[simp] theorem clockEdge_shown :
    (s.clockEdge i).shown = ((s.showCycle i).driveCsrRdata s.engine.off |>.driveCfgRdata i.cfgAddr).shown :=
  applyRst_shown _ _

/-- The configuration port at rest leaves its file. -/
theorem CfgFile.next_idle (f : CfgFile) (hw : i.cfgWe = false) (hr : i.cfgRe = false) : f.next i = f := by
  simp [CfgFile.next, hw, hr]

/-- An edge never touches the fixed fields. -/
theorem CfgFile.next_fixed (f : CfgFile) (c : BitVec 16) (d : Word) :
    { f.next i with command := c, dout := d } = { f with command := c, dout := d } := rfl

/-! ## The engine in IDLE -/

/-- Without a start the engine keeps everything (R171). -/
theorem Engine.next_idle {e : Engine} (hst : e.st = .idle) (hs : starts i.frame i.irdy = false) : e.next i = e := by
  unfold starts at hs
  simp [Engine.next, hst, hs]

/-- A start with a code that is not claimed writes the latches and nothing else (R168, R170). -/
theorem Engine.next_ignored {e : Engine} (hst : e.st = .idle) (hs : starts i.frame i.irdy = true)
    (hc : claims i.cbe = false) : e.next i = e.latch i.adIn i.cbe := by
  unfold starts at hs
  simp [Engine.next, hst, hs, hc, Engine.latch]

/-! ## The engine in an IO state with the gate open -/

/-- An end edge returns to IDLE. -/
theorem Engine.next_ends {e : Engine} (hst : e.st = .ioRead ∨ e.st = .ioWrite) (hd : e.devReady = true)
    (he : endsStay e.irdySeen i.frame i.irdy = true) : e.next i = e.finish := by
  unfold endsStay at he
  rcases hst with h | h <;> simp [Engine.next, h, hd, he, Engine.finish]

/-- Any other edge stays and remembers initiator-ready. -/
theorem Engine.next_waits {e : Engine} (hst : e.st = .ioRead ∨ e.st = .ioWrite) (hd : e.devReady = true)
    (he : endsStay e.irdySeen i.frame i.irdy = false) : e.next i = e.wait i.irdy := by
  unfold endsStay at he
  rcases hst with h | h <;> simp [Engine.next, h, hd, he, Engine.wait, seenAfter]

/-! ## Unrolling -/

/-- A stimulus loaded sample by sample. -/
theorem load_cons (is : List Sample) : s.load (i :: is) = { s with stim := i :: (is ++ s.stim) } := rfl

/-- One more `NOP` is one more quiet cycle (R103). -/
theorem expand_nop_succ (k : Nat) : (PseudoOp.nop (k + 1)).expand = Sample.quiet :: (PseudoOp.nop k).expand := rfl

/-- One more `RST` is one more cycle with `rst` (R103). -/
theorem expand_rst_succ (k : Nat) :
    (PseudoOp.rst (k + 1)).expand = { Sample.quiet with rst := true } :: (PseudoOp.rst k).expand := rfl

/-- A transaction stops as soon as the engine is in IDLE; what is pending stays pending. -/
theorem runToIdle_idle (is : List Sample) (h : s.engine.st = .idle) : runToIdle is s = { s with stim := is } := by
  cases is <;> simp [runToIdle, h]

/-- Outside IDLE the next pending sample makes an edge. -/
theorem runToIdle_cons (is : List Sample) (h : s.engine.st ≠ .idle) :
    runToIdle (i :: is) s = runToIdle is (s.clockEdge i) := by
  simp [runToIdle, h]

/-- A property of states that every edge keeps, whatever is pending, is kept by a transaction. -/
theorem runToIdle_keeps {P : State → Prop} (hedge : ∀ s i, P s → P (s.clockEdge i))
    (hstim : ∀ s is, P s → P { s with stim := is }) (is : List Sample) (h : P s) : P (runToIdle is s) := by
  induction is generalizing s with
  | nil => exact hstim _ _ h
  | cons i is ih =>
    unfold runToIdle
    split
    · exact hstim _ _ h
    · exact ih _ (hedge _ _ h)

/-- The same for a whole bus command. -/
theorem busCommand_keeps {P : State → Prop} (hedge : ∀ s i, P s → P (s.clockEdge i))
    (hstim : ∀ s is, P s → P { s with stim := is }) (c : Command) (a : Word) (h : P s) : P (s.busCommand c a) := by
  unfold State.busCommand
  dsimp only
  split
  · exact runToIdle_keeps _ hedge hstim _ (hedge _ _ h)
  · exact hedge _ _ h

end Sys2Proof.Machine
end

