-- ==== Sys2Proof/Tests/Slice0.lean ====
section
/-! SUPPORT. The model's own tests. Expected results are the vectors of 95_test_vectors.md (named V<n> row, P<n> cycle) or
are worked out by hand from the rule named; words are written out from the `encoding` column of the table. The witnesses show
states and operands that meet the hypotheses of the statements in Certificates/Slice0/Obligations.lean. -/

namespace Sys2Proof.Tests

open Sys2Proof Sys2Proof.Machine

/-! ## Helpers -/

/-- The outcome is a next state with the property `p`. -/
def nextIs (o : Host.Outcome State Fault Refusal) (p : State → Bool) : Bool :=
  match o with
  | .next s => p s
  | .fault _ => false
  | .refused _ => false

/-- The word is rejected. -/
def rejected (r : Except DecodeError Instr) : Bool :=
  match r with
  | .ok _ => false
  | .error _ => true

/-- The reset state but for the engine, written as in 95_test_vectors.md. -/
def engineAt (st : Phase) (devReady irdySeen : Bool) (addr : Word) (cmd : Command) : State :=
  { State.reset with engine := ⟨st, addr, cmd, devReady, irdySeen⟩ }

/-- `s` with the two words of the Command/Status file. -/
def withCsr (s : State) (cmd stat : Word) : State := { s with csr := ⟨cmd, stat⟩ }

/-- `s` with the command field and the latch of the Configuration file. -/
def withCfg (s : State) (command : BitVec 16) (dout : Word) : State :=
  { s with cfg := { s.cfg with command := command, dout := dout } }

/-- A `CYC` line: `frame irdy cbe ad_in`. -/
def line (frame irdy : Bool) (cbe : Command) (ad : Word) : Sample := cyc frame irdy cbe (some ad)

/-- One cycle of the configuration port. -/
def port (re we : Bool) (addr : Offset) (wdata : Word) : Sample :=
  { Sample.quiet with cfgRe := re, cfgWe := we, cfgAddr := addr, cfgWdata := wdata }

/-- One step with the sample `i`, then a look at the state. -/
def edge (s : State) (i : Sample) (p : State → Bool) : Bool := nextIs (step { s with stim := [i] }) p

/-- The engine is as written. -/
def engineIs (st : Phase) (devReady irdySeen : Bool) (addr : Word) (cmd : Command) (s : State) : Bool :=
  decide (s.engine = ⟨st, addr, cmd, devReady, irdySeen⟩)

/-! ## Well-formedness: each check refuses an ill-formed term -/

theorem test_wf_ignore_excludes_io_codes :
    (Instr.idleLatchIgnore false false 0b0010#4 0#32).wellFormed = false ∧
    (Instr.idleLatchIgnore false false 0b0011#4 0#32).wellFormed = false ∧
    (Instr.idleLatchIgnore false false 0b1010#4 0#32).wellFormed = true := by decide

theorem test_wf_hold_excludes_start :
    (Instr.idleHold false false true true 0b0000#4).wellFormed = false ∧
    (Instr.idleHold false false true false 0b0000#4).wellFormed = true := by decide

theorem test_wf_read_wait_excludes_end :
    (Instr.ioReadWait true false false 0b0000#4).wellFormed = false ∧
    (Instr.ioReadWait false false false 0b0000#4).wellFormed = true := by decide

theorem test_wf_write_wait_excludes_end :
    (Instr.ioWriteWait true false false 0b0000#4).wellFormed = false ∧
    (Instr.ioWriteWait true true false 0b0000#4).wellFormed = true := by decide

theorem test_wf_cfg_read_other_excludes_mapped :
    (Instr.cfgRdOther false true 0x00#8).wellFormed = false ∧ (Instr.cfgRdOther false true 0x04#8).wellFormed = false ∧
    (Instr.cfgRdOther false true 0x08#8).wellFormed = false ∧ (Instr.cfgRdOther false true 0x0C#8).wellFormed = false ∧
    (Instr.cfgRdOther false true 0x05#8).wellFormed = true := by decide

theorem test_wf_cfg_write_other_excludes_04 :
    (Instr.cfgWrOther false 0x04#8 0#32).wellFormed = false ∧
    (Instr.cfgWrOther false 0x00#8 0#32).wellFormed = true := by decide

theorem test_wf_csr_read_other_excludes_mapped :
    (Instr.csrRdOther false true 0x00#8).wellFormed = false ∧ (Instr.csrRdOther false true 0x04#8).wellFormed = false ∧
    (Instr.csrRdOther false true 0x08#8).wellFormed = true := by decide

theorem test_wf_csr_write_other_excludes_mapped :
    (Instr.csrWrOther false 0x00#8 0#32).wellFormed = false ∧ (Instr.csrWrOther false 0x04#8 0#32).wellFormed = false ∧
    (Instr.csrWrOther false 0x3C#8 0#32).wellFormed = true := by decide

/-! ## Decoding: every row by a word written out from the `encoding` column -/

/-- `encoding` `cccc` (R92, R94). -/
theorem test_decode_bus_cmd (a : Word) :
    decodeWord .command 0b0000000000#10 a = .ok (.ign0000 a) ∧ decodeWord .command 0b0000000001#10 a = .ok (.ign0001 a) ∧
    decodeWord .command 0b0000000010#10 a = .ok (.ior a) ∧ decodeWord .command 0b0000000011#10 a = .ok (.iow a) ∧
    decodeWord .command 0b0000000100#10 a = .ok (.ign0100 a) ∧ decodeWord .command 0b0000000101#10 a = .ok (.ign0101 a) ∧
    decodeWord .command 0b0000000110#10 a = .ok (.ign0110 a) ∧ decodeWord .command 0b0000000111#10 a = .ok (.ign0111 a) ∧
    decodeWord .command 0b0000001000#10 a = .ok (.ign1000 a) ∧ decodeWord .command 0b0000001001#10 a = .ok (.ign1001 a) ∧
    decodeWord .command 0b0000001010#10 a = .ok (.ign1010 a) ∧ decodeWord .command 0b0000001011#10 a = .ok (.ign1011 a) ∧
    decodeWord .command 0b0000001100#10 a = .ok (.ign1100 a) ∧ decodeWord .command 0b0000001101#10 a = .ok (.ign1101 a) ∧
    decodeWord .command 0b0000001110#10 a = .ok (.ign1110 a) ∧ decodeWord .command 0b0000001111#10 a = .ok (.ign1111 a) := by
  refine ⟨?_, ?_, ?_, ?_, ?_, ?_, ?_, ?_, ?_, ?_, ?_, ?_, ?_, ?_, ?_, ?_⟩ <;> rfl

/-- IDLE rows: `00ds11001c`, `00ds11cccc`, `00dsficccc`. -/
theorem test_decode_idle (a : Word) :
    decodeWord .transition 0b0001110010#10 a = .ok (.idleLatchClaim false true false a) ∧
    decodeWord .transition 0b0010110011#10 a = .ok (.idleLatchClaim true false true a) ∧
    decodeWord .transition 0b0010110110#10 a = .ok (.idleLatchIgnore true false 0b0110#4 a) ∧
    decodeWord .transition 0b0001100011#10 a = .ok (.idleHold false true true false 0b0011#4) ∧
    decodeWord .transition 0b0000010010#10 a = .ok (.idleHold false false false true 0b0010#4) := by
  refine ⟨?_, ?_, ?_, ?_, ?_⟩ <;> rfl

/-- `01dsficccc`, `101100cccc`, `101sficccc`. -/
theorem test_decode_decode_and_read (a : Word) :
    decodeWord .transition 0b0110010101#10 a = .ok (.decodeGo true false false true 0b0101#4) ∧
    decodeWord .transition 0b1011001001#10 a = .ok (.ioReadEnd 0b1001#4) ∧
    decodeWord .transition 0b1010000000#10 a = .ok (.ioReadWait false false false 0b0000#4) ∧
    decodeWord .transition 0b1011101111#10 a = .ok (.ioReadWait true true false 0b1111#4) := by
  refine ⟨?_, ?_, ?_, ?_⟩ <;> rfl

/-- `111sf1cccc`, `111100cccc`, `111sficccc`, `1t0sficccc`. -/
theorem test_decode_write_and_stall (a : Word) :
    decodeWord .store 0b1110110110#10 a = .ok (.ioWriteStore false true 0b0110#4 a) ∧
    decodeWord .transition 0b1111000001#10 a = .ok (.ioWriteEnd 0b0001#4) ∧
    decodeWord .transition 0b1110110110#10 a = .ok (.ioWriteWait false true true 0b0110#4) ∧
    decodeWord .transition 0b1001011000#10 a = .ok (.ioStall false true false true 0b1000#4) ∧
    decodeWord .transition 0b1100100001#10 a = .ok (.ioStall true false true false 0b0001#4) := by
  refine ⟨?_, ?_, ?_, ?_, ?_⟩ <;> rfl

/-- `wr00000000`, `wr00000100`, `wr00001000`, `wr00001100`, `wraaaaaaaa`, `w1aaaaaaaa`, `1r00000100`, `1raaaaaaaa`,
`00aaaaaaaa`. -/
theorem test_decode_cfg_port (v : Word) :
    decodeWord .cfgMux 0b0100000000#10 v = .ok (.cfgRd00 false true) ∧
    decodeWord .cfgMux 0b1000000100#10 v = .ok (.cfgRd04 true false) ∧
    decodeWord .cfgMux 0b0000001000#10 v = .ok (.cfgRd08 false false) ∧
    decodeWord .cfgMux 0b1100001100#10 v = .ok (.cfgRd0C true true) ∧
    decodeWord .cfgMux 0b0101000100#10 v = .ok (.cfgRdOther false true 0x44#8) ∧
    decodeWord .cfgLatch 0b1111111100#10 v = .ok (.cfgLatch true 0xFC#8) ∧
    decodeWord .cfgLatch 0b0010000001#10 v = .ok (.cfgHold 0x81#8) ∧
    decodeWord .cfgWrite 0b1100000100#10 v = .ok (.cfgWr04 true v) ∧
    decodeWord .cfgWrite 0b1000000110#10 v = .ok (.cfgWrOther false 0x06#8 v) := by
  refine ⟨?_, ?_, ?_, ?_, ?_, ?_, ?_, ?_, ?_⟩ <;> rfl

/-- `wr00000000`, `wr00000100`, `wroooooooo`, `1r00000000`, `1r00000100`, `1roooooooo`. -/
theorem test_decode_csr_port (v : Word) :
    decodeWord .csrMux 0b0100000000#10 v = .ok (.csrRd00 false true) ∧
    decodeWord .csrMux 0b1000000100#10 v = .ok (.csrRd04 true false) ∧
    decodeWord .csrMux 0b0000111100#10 v = .ok (.csrRdOther false false 0x3C#8) ∧
    decodeWord .csrWrite 0b1000000000#10 v = .ok (.csrWr00 false v) ∧
    decodeWord .csrWrite 0b1100000100#10 v = .ok (.csrWr04 true v) ∧
    decodeWord .csrWrite 0b1000001000#10 v = .ok (.csrWrOther false 0x08#8 v) := by
  refine ⟨?_, ?_, ?_, ?_, ?_, ?_⟩ <;> rfl

/-- Bytes: two of the word, low byte first, the tag above it, four of the operand (assumption 13); rejections by name. -/
theorem test_decode_bytes :
    decodeBytes [0x03#8, 0x1C#8, 0xC7#8, 0xFF#8, 0xFF#8, 0xFF#8] = .ok (.iow 0xFFFFFFC7#32) ∧
    decodeBytes [0x04#8, 0x12#8, 0x34#8, 0x12#8, 0xCD#8, 0xAB#8] = .ok (.cfgWr04 false 0xABCD1234#32) ∧
    decodeBytes [0x03#8, 0x1C#8, 0xC7#8, 0xFF#8, 0xFF#8] = .error .truncated ∧
    decodeBytes [0x00#8, 0x20#8, 0#8, 0#8, 0#8, 0#8] = .error .reservedBits ∧
    decodeBytes [0x10#8, 0x1C#8, 0#8, 0#8, 0#8, 0#8] = .error .commandTooWide ∧
    decodeBytes [0x80#8, 0x07#8, 0#8, 0#8, 0#8, 0#8] = .error .noStore ∧
    decodeBytes [0x04#8, 0x0E#8, 0#8, 0#8, 0#8, 0#8] = .error .noLatch ∧
    decodeBytes [0x04#8, 0x11#8, 0#8, 0#8, 0#8, 0#8] = .error .noWrite := by
  refine ⟨?_, ?_, ?_, ?_, ?_, ?_, ?_, ?_⟩ <;> rfl

/-- A table word as the host numbers it (assumption 12). -/
theorem test_decode_table_word :
    decodeTableWord 8 0x02 = some (.ior 0#32) ∧ decodeTableWord 16 0x390 = some (.ioWriteStore false false 0#4 0#32) ∧
    decodeTableWord 16 0x2C0 = some (.ioReadEnd 0#4) ∧ decodeTableWord 16 (0x1000 + 0x204) = some (.cfgWr04 false 0#32) := by
  decide

/-! ## Operands and wires -/

/-- V6: address to offset. -/
theorem test_offset_of_address :
    [0x00000003#32, 0x00000007#32, 0x00000010#32, 0x0000003F#32, 0x00000040#32, 0x12345678#32, 0xFFFFFFC7#32].map offsetOf =
      [0x00#8, 0x04#8, 0x10#8, 0x3C#8, 0x00#8, 0x38#8, 0x04#8] := by decide

/-- R9, R100: asserted is level 0 on an active-low wire. -/
theorem test_wire_levels :
    (InputLevels.sample ⟨true, false, false, true, true, false⟩ Sample.quiet).frame = true ∧
    (InputLevels.sample ⟨true, false, false, true, true, false⟩ Sample.quiet).rst = false ∧
    (InputLevels.sample ⟨true, false, false, true, true, false⟩ Sample.quiet).lock = false ∧
    Shown.reset.levels = ⟨true, true, true, true, true⟩ := by decide

/-- R133: only the low byte of a wider configuration offset is decoded. -/
theorem test_port_offset : portOffset 0xABCDEF04#32 = 0x04#8 := by decide

/-- V10: the shared bus. -/
theorem test_bus_resolution :
    resolveBus none (some 0x12#32) = some 0x12#32 ∧ resolveBus (some 0x34#32) none = some 0x34#32 ∧
    resolveBus none none = some 0xFFFFFFFF#32 ∧ resolveBus (some 0x34#32) (some 0x12#32) = none := by decide

/-! ## BUS_CMD -/

/-- V11: an ignored code from IDLE latches and stays. -/
theorem test_ign_low_codes :
    nextIs (exec (.ign0000 0xA4#32) State.reset) (engineIs .idle false false 0xA4#32 0b0000#4) ∧
    nextIs (exec (.ign0001 0xA4#32) State.reset) (engineIs .idle false false 0xA4#32 0b0001#4) ∧
    nextIs (exec (.ign0100 0xA4#32) State.reset) (engineIs .idle false false 0xA4#32 0b0100#4) ∧
    nextIs (exec (.ign0101 0xA4#32) State.reset) (engineIs .idle false false 0xA4#32 0b0101#4) ∧
    nextIs (exec (.ign0110 0xA4#32) State.reset) (engineIs .idle false false 0xA4#32 0b0110#4) ∧
    nextIs (exec (.ign0111 0xA4#32) State.reset) (engineIs .idle false false 0xA4#32 0b0111#4) := by decide

/-- V11, the other eight. -/
theorem test_ign_high_codes :
    nextIs (exec (.ign1000 0xA4#32) State.reset) (engineIs .idle false false 0xA4#32 0b1000#4) ∧
    nextIs (exec (.ign1001 0xA4#32) State.reset) (engineIs .idle false false 0xA4#32 0b1001#4) ∧
    nextIs (exec (.ign1010 0xA4#32) State.reset) (engineIs .idle false false 0xA4#32 0b1010#4) ∧
    nextIs (exec (.ign1011 0xA4#32) State.reset) (engineIs .idle false false 0xA4#32 0b1011#4) ∧
    nextIs (exec (.ign1100 0xA4#32) State.reset) (engineIs .idle false false 0xA4#32 0b1100#4) ∧
    nextIs (exec (.ign1101 0xA4#32) State.reset) (engineIs .idle false false 0xA4#32 0b1101#4) ∧
    nextIs (exec (.ign1110 0xA4#32) State.reset) (engineIs .idle false false 0xA4#32 0b1110#4) ∧
    nextIs (exec (.ign1111 0xA4#32) State.reset) (engineIs .idle false false 0xA4#32 0b1111#4) := by decide

/-- P1 cycles 4 to 7: `IOR 00000000` with `csr_cmd = DEADBEEF`. -/
theorem test_ior :
    nextIs (exec (.ior 0x00000000#32) { withCsr State.reset 0xDEADBEEF#32 0#32 with stim := readDataPhase }) (fun t =>
      decide (t.shown.adOut = 0xDEADBEEF#32) && engineIs .idle false false 0#32 0b0010#4 t && decide (t.cycle = 4)) := by
  decide

/-- P2 cycles 8 to 11: `IOR 00000008` shows the sentinel. -/
theorem test_ior_unmapped :
    nextIs (exec (.ior 0x00000008#32) { State.reset with stim := readDataPhase }) (fun t =>
      decide (t.shown.adOut = 0xFFFFFFFF#32) && t.shown.trdy && t.shown.adOe) := by
  decide

/-- P2 cycles 0 to 3: `IOW FFFFFFC7, 12345678` stores into `csr_stat`. -/
theorem test_iow :
    nextIs (exec (.iow 0xFFFFFFC7#32) { State.reset with stim := writeDataPhase 0x12345678#32 }) (fun t =>
      decide (t.csr = ⟨0#32, 0x12345678#32⟩) && engineIs .idle false false 0xFFFFFFC7#32 0b0011#4 t) := by
  decide

/-- P2 cycles 4 to 7: `IOW 00000008, CAFEF00D` drops the data. -/
theorem test_iow_unmapped :
    nextIs (exec (.iow 0x00000008#32) { withCsr State.reset 1#32 2#32 with stim := writeDataPhase 0xCAFEF00D#32 }) (fun t =>
      decide (t.csr = ⟨1#32, 2#32⟩) && t.shown.trdy) := by
  decide

/-! ## FSM_STEP -/

/-- V7 row 2. -/
theorem test_idle_claim :
    edge State.reset (line true true 0b0011#4 0xFFFFFFC7#32) (engineIs .decode false false 0xFFFFFFC7#32 0b0011#4) := by decide

/-- V7 row 6. -/
theorem test_idle_ignore :
    edge State.reset (line true true 0b1010#4 0x00000004#32) (engineIs .idle false false 0x00000004#32 0b1010#4) := by decide

/-- V7 rows 10 and 11. -/
theorem test_idle_hold :
    edge (engineAt .idle false false 4#32 0b0010#4) (line true false 0b0011#4 0xAAAAAAAA#32)
      (engineIs .idle false false 4#32 0b0010#4) ∧
    edge (engineAt .idle false false 4#32 0b0010#4) (line false true 0b0011#4 0xAAAAAAAA#32)
      (engineIs .idle false false 4#32 0b0010#4) := by decide

/-- V7 rows 13 and 15. -/
theorem test_decode_go :
    edge (engineAt .decode false false 4#32 0b0010#4) (line false false 0b0011#4 5#32)
      (engineIs .ioRead true false 4#32 0b0010#4) ∧
    edge (engineAt .decode false true 4#32 0b0011#4) (line true true 0b0010#4 5#32)
      (engineIs .ioWrite true false 4#32 0b0011#4) := by decide

/-- V8 row 8. -/
theorem test_io_read_end :
    edge (withCsr (engineAt .ioRead true true 0#32 0b0010#4) 0xAA#32 0#32) (cyc false false 0b0000#4 none)
      (fun t => engineIs .idle false false 0#32 0b0010#4 t && decide (t.csr.cmd = 0xAA#32)) := by decide

/-- V8 rows 1 and 7: both deasserted before initiator-ready was seen is no end; neither is frame alone still asserted. -/
theorem test_io_read_wait :
    edge (engineAt .ioRead true false 0#32 0b0010#4) (line false false 0b0000#4 0#32)
      (engineIs .ioRead true false 0#32 0b0010#4) ∧
    edge (engineAt .ioRead true true 0#32 0b0010#4) (line true false 0b0000#4 0#32)
      (engineIs .ioRead true true 0#32 0b0010#4) := by decide

/-- V8 row 17: all 32 bits are stored whatever `cbe` holds. -/
theorem test_io_write_store :
    edge (withCsr (engineAt .ioWrite true false 0#32 0b0011#4) 0xAA#32 7#32) (line false true 0b1111#4 0xDEADBEEF#32)
      (fun t => engineIs .ioWrite true true 0#32 0b0011#4 t && decide (t.csr = ⟨0xDEADBEEF#32, 7#32⟩)) := by decide

/-- V8 row 15: nothing is stored at the end edge. -/
theorem test_io_write_end :
    edge (withCsr (engineAt .ioWrite true true 0#32 0b0011#4) 0xAA#32 7#32) (line false false 0b0000#4 0xDEADBEEF#32)
      (fun t => engineIs .idle false false 0#32 0b0011#4 t && decide (t.csr = ⟨0xAA#32, 7#32⟩)) := by decide

/-- V8 row 14. -/
theorem test_io_write_wait :
    edge (withCsr (engineAt .ioWrite true true 0#32 0b0011#4) 0xAA#32 7#32) (line true false 0b0000#4 0xDEADBEEF#32)
      (fun t => engineIs .ioWrite true true 0#32 0b0011#4 t && decide (t.csr = ⟨0xAA#32, 7#32⟩)) := by decide

/-- V8 rows 19 and 20. -/
theorem test_io_stall :
    edge (withCsr (engineAt .ioWrite false false 0#32 0b0011#4) 0xAA#32 7#32) (line false true 0b0000#4 0xDEADBEEF#32)
      (fun t => engineIs .ioWrite false false 0#32 0b0011#4 t && decide (t.csr.cmd = 0xAA#32)) ∧
    edge (engineAt .ioWrite false true 0#32 0b0011#4) (line false false 0b0000#4 0#32)
      (engineIs .ioWrite false true 0#32 0b0011#4) := by decide

/-- V9: outputs of (IO_READ,1,any,FFFFFFC7,0010) and of DECODE. -/
theorem test_outputs :
    edge (withCsr (engineAt .ioRead true false 0xFFFFFFC7#32 0b0010#4) 0xDEADBEEF#32 1#32) Sample.quiet (fun t =>
      t.shown.devsel && t.shown.trdy && t.shown.adOe && t.shown.csrRe && decide (t.shown.adOut = 1#32)) ∧
    edge (engineAt .decode false false 0#32 0b0010#4) Sample.quiet (fun t =>
      t.shown.devsel && !t.shown.trdy && !t.shown.adOe && !t.shown.csrRe && decide (t.shown.adOut = 0#32)) := by decide

/-- R103: the cycles of `XCMD 0110, A4`, `NOP 2` and `RST 1`, written as `CYC` lines. -/
theorem test_pseudo_expansions :
    (PseudoOp.xcmd 0b0110#4 0xA4#32).expand = [line true true 0b0110#4 0xA4#32, cyc false false 0#4 none] ∧
    (PseudoOp.nop 2).expand = [cyc false false 0#4 none, cyc false false 0#4 none] ∧
    (PseudoOp.rst 1).expand = [{ cyc false false 0#4 none with rst := true }] := by decide

/-! ## CFG_PORT -/

/-- V1: the mapped words with `cfg_command = BEEF`. -/
theorem test_cfg_reads :
    nextIs (exec (.cfgRd00 false true) (withCfg State.reset 0xBEEF#16 0#32)) (fun t => t.shown.cfgRdata = 0x56781234#32) ∧
    nextIs (exec (.cfgRd04 false true) (withCfg State.reset 0xBEEF#16 0#32)) (fun t => t.shown.cfgRdata = 0x0200BEEF#32) ∧
    nextIs (exec (.cfgRd08 false true) (withCfg State.reset 0xBEEF#16 0#32)) (fun t => t.shown.cfgRdata = 0x00000001#32) ∧
    nextIs (exec (.cfgRd0C false true) (withCfg State.reset 0xBEEF#16 0#32)) (fun t => t.shown.cfgRdata = 0x00000000#32) := by
  decide

/-- V1: offsets 06 and 44. -/
theorem test_cfg_read_other :
    nextIs (exec (.cfgRdOther false true 0x06#8) State.reset) (fun t => t.shown.cfgRdata = 0xFFFFFFFF#32) ∧
    nextIs (exec (.cfgRdOther false true 0x44#8) State.reset) (fun t => t.shown.cfgRdata = 0xFFFFFFFF#32) := by decide

/-- V3 rows 1 and 6: a latch load, and one beside a write, which takes the value before it. -/
theorem test_cfg_latch :
    edge State.reset (port true false 0x00#8 0#32) (fun t => t.cfg.dout = 0x56781234#32) ∧
    edge (withCfg State.reset 0xBEEF#16 0xFFFFFFFF#32) (port true true 0x04#8 0x00001111#32)
      (fun t => decide (t.cfg.dout = 0x0200BEEF#32) && decide (t.cfg.command = 0x1111#16)) := by decide

/-- V2 row 3 and V3 row 3: the write takes the low half and leaves the latch. -/
theorem test_cfg_write_04 :
    edge State.reset (port false true 0x04#8 0xABCD1234#32) (fun t => t.cfg.read 0x04#8 = 0x02001234#32) ∧
    edge (withCfg State.reset 0#16 0x56781234#32) (port false true 0x04#8 0x0000BEEF#32)
      (fun t => decide (t.cfg.dout = 0x56781234#32) && decide (t.cfg.command = 0xBEEF#16)) := by decide

/-- V2, offsets 00 and 44. -/
theorem test_cfg_write_other :
    edge (withCfg State.reset 0x1234#16 0#32) (port false true 0x00#8 0xAAAAAAAA#32)
      (fun t => decide (t.cfg = (withCfg State.reset 0x1234#16 0#32).cfg)) ∧
    edge (withCfg State.reset 0x1234#16 0#32) (port false true 0x44#8 0x00005555#32)
      (fun t => decide (t.cfg = (withCfg State.reset 0x1234#16 0#32).cfg)) := by decide

/-- V3 row 2. -/
theorem test_cfg_hold :
    edge (withCfg State.reset 0#16 0x56781234#32) (port false false 0x04#8 0#32)
      (fun t => decide (t.cfg.dout = 0x56781234#32) && decide (t.cfg.command = 0#16)) := by decide

/-- V3 rows 8 and 10: `rst` wins over the latch load if `RST_REGS`, else has no effect. -/
theorem test_cfg_rst :
    edge (withCfg State.reset 0x1111#16 0x56781234#32) { port true false 0x04#8 0#32 with rst := true }
      (fun t => decide (t.cfg.dout = 0#32) && decide (t.cfg.command = 0#16)) ∧
    edge (withCfg (State.resetOf ⟨0#32, 0#32, false⟩) 0x1111#16 0x56781234#32) { port true false 0x04#8 0#32 with rst := true }
      (fun t => decide (t.cfg.dout = 0x02001111#32) && decide (t.cfg.command = 0x1111#16)) := by decide

/-! ## CSR_PORT -/

/-- V4: the read mux. -/
theorem test_csr_reads :
    nextIs (exec (.csrRd00 false true) (withCsr State.reset 0xDEADBEEF#32 1#32)) (fun t => t.shown.csrRdata = 0xDEADBEEF#32) ∧
    nextIs (exec (.csrRd04 false false) (withCsr State.reset 0xDEADBEEF#32 1#32)) (fun t => t.shown.csrRdata = 1#32) ∧
    nextIs (exec (.csrRdOther false true 0x08#8) (withCsr State.reset 0xDEADBEEF#32 1#32))
      (fun t => t.shown.csrRdata = 0xFFFFFFFF#32) := by decide

/-- V5: writes to 00, 04 and 08. -/
theorem test_csr_writes :
    nextIs (exec (.csrWr00 false 0xDEADBEEF#32) (withCsr State.reset 0x11111111#32 0x22222222#32))
      (fun t => t.csr = ⟨0xDEADBEEF#32, 0x22222222#32⟩) ∧
    nextIs (exec (.csrWr04 false 0xFFFFFFFF#32) (withCsr State.reset 0x11111111#32 0x22222222#32))
      (fun t => t.csr = ⟨0x11111111#32, 0xFFFFFFFF#32⟩) ∧
    nextIs (exec (.csrWrOther false 0x08#8 0x12345678#32) (withCsr State.reset 0x11111111#32 0x22222222#32))
      (fun t => t.csr = ⟨0x11111111#32, 0x22222222#32⟩) := by decide

/-- V5 row 6: `rst` wins over a store. -/
theorem test_csr_rst :
    edge (withCsr (engineAt .ioWrite true false 0#32 0b0011#4) 0x11111111#32 0x22222222#32)
      { line false true 0#4 0xDEADBEEF#32 with rst := true }
      (fun t => decide (t.csr = ⟨0#32, 0#32⟩) && engineIs .ioWrite true true 0#32 0b0011#4 t) := by decide

/-! ## Witnesses: the hypotheses of the statements can be met -/

/-- A state in each of the four engine states, with the gate open in the IO states. -/
def sDecode : State := engineAt .decode false false 0x04#32 0b0010#4
def sRead (seen : Bool) : State := engineAt .ioRead true seen 0x04#32 0b0010#4
def sWrite (seen : Bool) : State := engineAt .ioWrite true seen 0x04#32 0b0011#4

/-- A data phase of two edges and its end edge; the second edge carries the data. -/
def dsEx : List Sample := [line true false 0#4 1#32, line true true 0#4 2#32]
def endEx : Sample := line false false 0#4 3#32

theorem witness_DecodeOfEncodeIsIdentity :
    (Instr.iow 0xFFFFFFFF#32).wellFormed = true ∧ (Instr.ioReadWait true true true 0xF#4).wellFormed = true ∧
    (Instr.cfgRdOther true true 0xFF#8).wellFormed = true ∧ (Instr.csrWrOther true 0xFF#8 0xFFFFFFFF#32).wellFormed = true := by
  decide

theorem witness_DecodedOperationReencodes :
    decodeWord .transition 0b1011000000#10 5#32 = .ok (.ioReadEnd 0#4) ∧
    decodeWord .csrWrite 0b1000000100#10 5#32 = .ok (.csrWr04 false 5#32) := ⟨rfl, rfl⟩

theorem witness_DecoderAgreesWithTable :
    (⟨.cfgWr04, .cfgPort, 0x2FF#10, 0x204#10, []⟩ : Row) ∈ tableRows ∧ Format.cfgPort.presents 0x204#10 = true ∧
    (⟨.ior, .busCmd, 0x00F#10, 0x002#10, []⟩ : Row) ∈ tableRows ∧ Format.busCmd.presents 0x00F#10 = true := by decide

theorem witness_PlacedWordIsReadNext :
    Slot.command ≠ .csrMux ∧ Slot.command ≠ .csrWrite ∧ (0x00F#10 : PortWord).toNat < 16 ∧
    (true && false) = false := by decide

theorem witness_StepRunsTheSelectedRows :
    let s : State := { sWrite false with stim := [{ line false true 0#4 9#32 with cfgRe := true, cfgWe := true, cfgAddr := 0x04#8 }] }
    s.noReset s.presented ∧
    decodeWord .transition (s.stepWord s.presented) s.presented.adIn = .ok (.ioWriteWait false false true 0#4) ∧
    decodeWord .store (s.stepWord s.presented) s.presented.adIn = .ok (.ioWriteStore false false 0#4 9#32) ∧
    decodeWord .csrMux (s.csrWord s.presented) s.presented.adIn = .ok (.csrRd04 true false) ∧
    decodeWord .csrWrite (s.csrWord s.presented) s.presented.adIn = .ok (.csrWr04 false 9#32) ∧
    decodeWord .cfgMux (Sample.cfgWord s.presented) s.presented.cfgWdata = .ok (.cfgRd04 true true) ∧
    decodeWord .cfgLatch (Sample.cfgWord s.presented) s.presented.cfgWdata = .ok (.cfgLatch true 0x04#8) ∧
    decodeWord .cfgWrite (Sample.cfgWord s.presented) s.presented.cfgWdata = .ok (.cfgWr04 true 0#32) ∧
    nextIs (exec (.ioWriteStore false false 0#4 9#32) s) (fun _ => true) := by
  refine ⟨rfl, rfl, rfl, rfl, rfl, rfl, rfl, rfl, rfl⟩

theorem witness_StepRunsTheSelectedRows_unselected :
    let s : State := { State.reset with stim := [port false true 0x00#8 0#32] }
    let r : State := { State.reset with stim := [port true false 0x00#8 0#32] }
    s.noReset s.presented ∧ rejected (decodeWord .store (s.stepWord s.presented) s.presented.adIn) ∧
    rejected (decodeWord .cfgLatch (Sample.cfgWord s.presented) s.presented.cfgWdata) ∧
    rejected (decodeWord .cfgWrite (Sample.cfgWord r.presented) r.presented.cfgWdata) := ⟨rfl, rfl, rfl, rfl⟩

theorem witness_TransactionIsARunOfSteps :
    (Instr.ior 0#32, 0b0010#4) ∈ busCommands 0#32 ∧ (Instr.ign1111 0#32, 0b1111#4) ∈ busCommands 0#32 := by decide

theorem witness_Inv (s : State) (he : s.engine = ⟨.ioRead, 0x04#32, 0b0010#4, true, false⟩) (hc : s.cfg = CfgFile.reset) :
    s.Inv := by
  constructor <;> simp [he, hc, Engine.adOe, Engine.trdy, Engine.devsel]; rfl

/-- Reset and a reading engine both have the invariants, the premise of `StepKeepsInvariants` and of
`OperationsKeepInvariants`. -/
theorem witness_StepKeepsInvariants : State.reset.Inv ∧ (sRead false).Inv := by
  refine ⟨?_, witness_Inv _ rfl rfl⟩
  constructor <;> simp [State.reset, State.resetOf, Engine.reset, Engine.adOe, Engine.trdy]; rfl

theorem witness_RegisterFilesOwnTheirState :
    edge (sWrite false) (line false true 0#4 9#32) (fun t => decide (t.csr ≠ State.reset.csr)) ∧
    edge State.reset (port true true 0x04#8 9#32)
      (fun t => decide (t.cfg.command ≠ State.reset.cfg.command) && decide (t.cfg.dout ≠ State.reset.cfg.dout)) := by decide

theorem witness_CfgMappedReads :
    (withCfg State.reset 0xFFFF#16 0xFFFFFFFF#32).cfg.fixedHold ∧ (0x300#10 : PortWord).extractLsb' 0 8 = 0x00#8 ∧
    (0x304#10 : PortWord).extractLsb' 0 8 = 0x04#8 ∧ (0x308#10 : PortWord).extractLsb' 0 8 = 0x08#8 ∧
    (0x30C#10 : PortWord).extractLsb' 0 8 = 0x0C#8 ∧ (port false true 0x04#8 9#32).cfgAddr = 0x04#8 := by decide

theorem witness_CfgUnmappedReadsAreSentinel :
    ∀ o ∈ [0x01#8, 0x0B#8, 0x0D#8, 0xFF#8], o ≠ 0x00#8 ∧ o ≠ 0x04#8 ∧ o ≠ 0x08#8 ∧ o ≠ 0x0C#8 := by decide

/-- For `CfgLatchLoads` and `CfgEnablesActIndependently`: with `rst` deasserted, and with `rst` where `RST_REGS` is false. -/
theorem witness_noReset :
    State.reset.noReset (port true true 0x04#8 9#32) ∧
    (State.resetOf ⟨0#32, 0#32, false⟩).noReset { port true false 0x04#8 9#32 with rst := true } := by decide

theorem witness_CfgWriteCommandField :
    State.reset.cfg.fixedHold ∧ (0x00#8 : Offset) ≠ 0x04#8 ∧
    let s : State := { State.reset with stim := [port false true 0x04#8 9#32] }
    s.noReset s.presented ∧ s.presented.cfgWe = true ∧ s.presented.cfgAddr = 0x04#8 := by decide

theorem witness_CfgOtherWritesAreDropped :
    (∀ o ∈ [0x00#8, 0x03#8, 0x05#8, 0xFF#8], o ≠ 0x04#8) ∧
    let s : State := { State.reset with stim := [port false true 0x05#8 9#32] }
    s.noReset s.presented ∧ s.presented.cfgWe = true ∧ s.presented.cfgAddr ≠ 0x04#8 := by decide

theorem witness_CsrMappedReads :
    (0xFFFFFFC3#32 : Word).extractLsb' 2 4 = 0b0000#4 ∧ (0xFFFFFFC7#32 : Word).extractLsb' 2 4 = 0b0001#4 ∧
    let s : State := { engineAt .ioWrite true false 0x04#32 0b0011#4 with stim := [line true false 0#4 9#32] }
    s.noReset s.presented ∧ s.engine.csrWe s.presented.irdy = false := by decide

/-- At each of the two offsets. -/
theorem witness_CsrMappedWrites :
    let s (a : Word) : State := { engineAt .ioWrite true false a 0b0011#4 with stim := [line true true 0#4 9#32] }
    (s 0x00#32).noReset (s 0x00#32).presented ∧ (s 0x00#32).engine.csrWe (s 0x00#32).presented.irdy = true ∧
    (s 0x00#32).engine.off = 0x00#8 ∧
    (s 0x47#32).noReset (s 0x47#32).presented ∧ (s 0x47#32).engine.csrWe (s 0x47#32).presented.irdy = true ∧
    (s 0x47#32).engine.off = 0x04#8 := by decide

/-- For `CsrUnmappedReadsAreSentinel` and `CsrOtherWritesAreDropped`. -/
theorem witness_CsrUnmappedReadsAreSentinel :
    (∀ o ∈ [0x01#8, 0x05#8, 0x08#8, 0xFF#8], o ≠ 0x00#8 ∧ o ≠ 0x04#8) ∧
    (0x08#32 : Word).extractLsb' 2 4 ≠ 0b0000#4 ∧ (0x08#32 : Word).extractLsb' 2 4 ≠ 0b0001#4 ∧
    (0xFFFFFFFF#32 : Word).extractLsb' 2 4 ≠ 0b0000#4 ∧ (0xFFFFFFFF#32 : Word).extractLsb' 2 4 ≠ 0b0001#4 := by decide

/-- For `IdleStartIsClaimed`, `IdleStartIsIgnored` and `IdleHolds`. -/
theorem witness_idle :
    State.reset.engine.st = .idle ∧ (0b0000#4 : Command) ≠ 0b0010#4 ∧ (0b0000#4 : Command) ≠ 0b0011#4 ∧
    (0b0001#4 : Command) ≠ 0b0010#4 ∧ (0b0100#4 : Command) ≠ 0b0011#4 ∧
    ((line true false 0#4 0#32).frame && (line true false 0#4 0#32).irdy) = false := by decide

/-- For `DecodeGoes` and `DecodeClaimsTheTransaction`. -/
theorem witness_decode : sDecode.engine.st = .decode := by decide

theorem witness_IoReadWaitsAndEnds :
    (sRead true).engine.st = .ioRead ∧ (sRead true).engine.devReady = true ∧ (sRead true).engine.irdySeen = true ∧
    ¬((sRead false).engine.irdySeen = true ∧ false = false ∧ false = false) ∧
    ¬((sRead true).engine.irdySeen = true ∧ true = false ∧ false = false) := by decide

/-- For `IoWriteStores` and `IoWriteWaitsAndEnds`. -/
theorem witness_IoWriteWaitsAndEnds :
    (sWrite true).engine.st = .ioWrite ∧ (sWrite true).engine.devReady = true ∧ (sWrite true).engine.irdySeen = true ∧
    ¬((sWrite false).engine.irdySeen = true ∧ false = false ∧ false = false) := by decide

theorem witness_IoStalls :
    let s := engineAt .ioWrite false true 0#32 0b0011#4
    (s.engine.st = .ioRead ∨ s.engine.st = .ioWrite) ∧ s.engine.devReady = false ∧ s.noReset (line false true 0#4 9#32) := by
  decide

theorem witness_UnselectedStepRowsChangeNothing :
    sDecode.engine.st ≠ .idle ∧ State.reset.engine.st ≠ .decode ∧ (sWrite true).engine.st ≠ .ioRead ∧
    (engineAt .ioRead false true 0#32 0b0010#4).engine.devReady = false ∧ (sRead true).engine.st ≠ .ioWrite := by decide

/-- For `PhaseGraph` and `OutputsOfEachState`: a state for each clause. -/
theorem witness_PhaseGraph :
    State.reset.engine.st = .idle ∧ sDecode.engine.st = .decode ∧ (sRead true).engine.st = .ioRead ∧
    (sWrite true).engine.st = .ioWrite := by decide

theorem witness_SharedBusIsResolved :
    (sRead true).engine.adOe = true ∧ (cyc false false 0#4 none).adDrive = none ∧ State.reset.engine.adOe = false ∧
    (line true true 0#4 7#32).adDrive = some 7#32 := by decide

theorem witness_RstReloadsTheRegisterFiles :
    ({ Sample.quiet with rst := true } : Sample).rst = true ∧ State.reset.config.rstRegs = true ∧
    (State.resetOf ⟨0#32, 0#32, false⟩).config.rstRegs = false := by decide

/-- For `UnreadInputsChangeNothing`. -/
theorem witness_UnreadInputsChangeNothing : (sRead true).engine.st ≠ .idle ∧ sDecode.engine.st = .decode := by decide

theorem witness_IgnoredCommandsOnlyLatch :
    (Instr.ign0000 9#32, 0b0000#4) ∈ ignoredCommands 9#32 ∧ (Instr.ign1111 9#32, 0b1111#4) ∈ ignoredCommands 9#32 ∧
    State.reset.engine.st = .idle := by decide

/-- For `IorReadsTheAddressedWord` and `IowStoresTheLastData`: a data phase with two edges, with a port at rest. -/
theorem witness_IorReadsTheAddressedWord :
    let s : State := { State.reset with stim := Sample.quiet :: (dsEx ++ endEx :: []) }
    s.engine.st = .idle ∧ isDataPhase dsEx endEx = true ∧ noRst (Sample.quiet :: (dsEx ++ [endEx])) = true ∧
    cfgIdle (Sample.quiet :: (dsEx ++ [endEx])) = true ∧ lastData dsEx = some 2#32 := by decide

theorem witness_WriteThenReadRoundTrip :
    let s : State := { State.reset with stim := Sample.quiet :: (dsEx ++ endEx :: Sample.quiet :: (dsEx ++ endEx :: [])) }
    s.engine.st = .idle ∧ (0xFFFFFFC7#32 : Word).extractLsb' 2 4 = (0x04#32 : Word).extractLsb' 2 4 ∧
    isDataPhase dsEx endEx = true ∧ noRst (Sample.quiet :: (dsEx ++ [endEx])) = true := ⟨rfl, rfl, rfl, rfl⟩

/-- Initiator-ready never asserted, and asserted but never released. -/
theorem witness_UnendedDataPhaseGoesOn :
    staysOpen false [line true false 0#4 1#32, line false false 0#4 1#32] = true ∧ staysOpen false dsEx = true ∧
    noRst (Sample.quiet :: dsEx) = true ∧ dsEx ≠ [] ∧
    ({ State.reset with stim := Sample.quiet :: dsEx } : State).engine.st = .idle := by decide

theorem witness_CommandOutsideIdleIsNoStart :
    (Instr.iow 9#32, 0b0011#4) ∈ busCommands 9#32 ∧ (sRead false).engine.st ≠ .idle := by decide

theorem witness_NoCommandReachesConfiguration :
    (Instr.iow 9#32, 0b0011#4) ∈ busCommands 9#32 ∧ cfgIdle (writeDataPhase 7#32) = true ∧
    noRst (writeDataPhase 7#32) = true ∧ (Instr.ign1010 9#32, 0b1010#4) ∈ busCommands 9#32 ∧
    (Instr.ign1011 9#32, 0b1011#4) ∈ busCommands 9#32 ∧ State.reset.engine.st = .idle := by decide

/-- Both values of `RST_REGS`, a count of 0 and of 1, and the codes beside the two claimed ones. -/
theorem witness_PseudoOperationsGiveTheirResults :
    State.reset.engine.st = .idle ∧ (0b0001#4 : Command) ≠ 0b0010#4 ∧ (0b0001#4 : Command) ≠ 0b0011#4 ∧
    (0b0100#4 : Command) ≠ 0b0010#4 ∧ (0b0100#4 : Command) ≠ 0b0011#4 ∧
    0 < 1 ∧ State.reset.config.rstRegs = true ∧ (State.resetOf ⟨1#32, 2#32, false⟩).engine.st = .idle ∧
    (State.resetOf ⟨1#32, 2#32, false⟩).config.rstRegs = false := by decide

end Sys2Proof.Tests
end

/-! # Proofs: one clock edge, and rows outside their state

That running the selected rows is the reference listing is proved once (`step_eq_clockEdge`). What a slot's row does to the
state is then read off the lemmas of Laws/Rows.lean that say what running the slot does. -/

namespace Sys2Proof.Machine

/-! ## The shares of the register files -/

@[simp] theorem CfgFile.write_commandField (f : CfgFile) (o : Offset) (v : Word) :
    (f.write o v).command = if o = 0x04#8 then commandOperand v else f.command := by
  unfold CfgFile.write; split <;> rfl

/-- The Configuration file's share of an edge is the latch load, then the write: the latch takes the value before it (R126). -/
theorem CfgFile.next_eq_latch_write (i : Sample) (f : CfgFile) :
    f.next i =
      let g := if i.cfgRe then f.latch i.cfgAddr else f
      if i.cfgWe then g.write i.cfgAddr i.cfgWdata else g := by
  have hlatch : (if i.cfgRe then f.latch i.cfgAddr else f) =
      { f with dout := if i.cfgRe then f.read i.cfgAddr else f.dout } := by
    split <;> rfl
  dsimp only
  rw [hlatch]
  cases hw : i.cfgWe with
  | false => simp [CfgFile.next, hw]
  | true => by_cases ha : i.cfgAddr = 0x04#8 <;> simp [CfgFile.next, CfgFile.write, hw, ha]

/-- Storing twice, at the port and at the engine, is the Command/Status file's share of an edge (assumption 14). -/
theorem csrNext_eq_write_write (i : Sample) (s : State) :
    s.csrNext i =
      let g := if s.engine.csrWe i.irdy then s.csr.write s.engine.off i.adIn else s.csr
      if s.engine.csrWe i.irdy then g.write s.engine.off i.adIn else g := by
  unfold State.csrNext
  dsimp only
  split
  · rw [CsrFile.write_write]
  · rfl

/-! ## The step is the reference listing -/

/-- The transition row of `s` moves the engine of any state that holds the same engine. -/
theorem exec_transition_of_engine {s t : State} (i : Sample) (h : t.engine = s.engine) :
    exec (decodeTransition (s.stepWord i) i.adIn) t = .next { t with engine := s.engine.next i } := by
  have hw : s.stepWord i = t.stepWord i := by simp only [State.stepWord, h]
  rw [hw, exec_transition, h]

/-- The selected rows of an edge, run one after another, make every share of the reference listing from `S_n`: no row reads
what an earlier one has written (R71). -/
theorem runRows_selectedRows (i : Sample) (s : State) :
    runRows (s.selectedRows i) (s.showCycle i) =
      .next { s with
        engine := s.engine.next i, csr := s.csrNext i, cfg := s.cfg.next i,
        shown := ((s.showCycle i).driveCsrRdata s.engine.off |>.driveCfgRdata i.cfgAddr).shown } := by
  have hoff : offsetField (s.csrWord i) = s.engine.off := packPort_offset ..
  have haddr : offsetField (Sample.cfgWord i) = i.cfgAddr := packPort_offset ..
  rw [selectedRows_eq, runRows_cons _ (exec_csrMux _ _), runRows_cons _ (exec_cfgMux _ _), hoff, haddr,
    runRows_cfgLatch, runRows_cfgWrite, runRows_csrWrite, runRows_store i s,
    runRows_cons _ (exec_transition_of_engine i _)]
  · simp [runRows, apply_ite State.csr, apply_ite State.cfg, apply_ite State.config, apply_ite State.cycle,
      apply_ite State.stim, apply_ite State.shown, CfgFile.next_eq_latch_write, csrNext_eq_write_write]
  · simp [apply_ite State.engine]
  · simp [apply_ite State.engine]

/-- A step is one edge of the reference listing, after which the sample is used up (R7, R71). -/
theorem step_eq_clockEdge (s : State) : step s = .next { s.clockEdge s.presented with stim := s.stim.tail } := by
  unfold step State.edgeByRows
  rw [runRows_selectedRows]
  simp only [State.clockEdge, State.applyRst, State.tick]
  split <;> rfl

/-! ## What a slot's row leaves -/

/-- The Command/Status file after its write slot, or after the store slot, has run (R144 to R146, R174). -/
theorem csr_of_csrWe (i : Sample) (s : State) :
    (if s.engine.csrWe i.irdy then s.writeCsr s.engine.off i.adIn else s).csr = s.csrNext i :=
  apply_ite State.csr ..

/-- The output latch after the latch slot has run (R126, R130). -/
theorem dout_of_cfgRe (i : Sample) (s : State) :
    (if i.cfgRe then s.latchCfg i.cfgAddr else s).cfg.dout = (s.cfg.next i).dout :=
  apply_ite (fun t : State => t.cfg.dout) ..

/-- The command field after the Configuration write slot has run (R127, R128). -/
theorem command_of_cfgWe (i : Sample) (s : State) :
    (if i.cfgWe then s.writeCfg i.cfgAddr i.cfgWdata else s).cfg.command = (s.cfg.next i).command := by
  cases hw : i.cfgWe <;> simp [CfgFile.next, hw]

/-- A part `f` of the state that is `x` after a slot has run is `x` after the row the slot selects, and is already `x`
where the slot selects nothing. -/
theorem part_of_runRows_slot {α : Type} {o : Except DecodeError Instr} {s t : State} (f : State → α) {x : α}
    (hrun : runRows (o.toOption.toList ++ []) s = .next t) (hx : f t = x) :
    (∀ r u, o = .ok r → exec r s = .next u → x = f u) ∧ (∀ e, o = .error e → x = f s) := by
  subst hx
  constructor
  · rintro r u rfl hu
    have h : runRows [r] s = .next u := runRows_cons [] hu
    exact congrArg f (Host.Outcome.next.inj (hrun.symm.trans h))
  · rintro e rfl
    exact congrArg f (Host.Outcome.next.inj hrun).symm

/-- Settles O7: the step is the reference listing, and each slot's row makes that listing's share of its part. -/
theorem stepRunsTheSelectedRows : Obligations.StepRunsTheSelectedRows := by
  intro s
  refine ⟨_, step_eq_clockEdge s, clockEdge_cycle _ _, rfl, clockEdge_config _ _, ?_, ?_, ?_, fun hr => ?_⟩
  all_goals generalize s.presented = i at *
  · rintro _ u ⟨⟩ hu
    cases (exec_transition i s).symm.trans hu
    exact clockEdge_engine s i
  · rintro _ u ⟨⟩ hu
    cases (exec_csrMux _ s).symm.trans hu
    simp [State.csrWord]
  · rintro _ u ⟨⟩ hu
    cases (exec_cfgMux _ s).symm.trans hu
    simp [Sample.cfgWord]
  · have hcsr : (s.clockEdge i).csr = s.csrNext i := by simp [hr]
    have hcfg : (s.clockEdge i).cfg = s.cfg.next i := by simp [hr]
    obtain ⟨store, noStore⟩ := part_of_runRows_slot State.csr (runRows_store i s [] s rfl) (csr_of_csrWe i s)
    obtain ⟨csrWrite, -⟩ := part_of_runRows_slot State.csr (runRows_csrWrite i s [] s) (csr_of_csrWe i s)
    obtain ⟨latch, noLatch⟩ := part_of_runRows_slot (·.cfg.dout) (runRows_cfgLatch i [] s) (dout_of_cfgRe i s)
    obtain ⟨write, noWrite⟩ := part_of_runRows_slot (·.cfg.command) (runRows_cfgWrite i [] s) (command_of_cfgWe i s)
    simp only [hcsr, hcfg]
    exact ⟨store, csrWrite, noStore, latch, noLatch, write, noWrite⟩

/-! ## Rows outside their state -/

/-- A guarded rule whose guard is false answers the state it was given (R12). -/
theorem next_moveEngine_of_guard {g : Bool} (m : Engine → Engine) (s : State) (h : g = false) :
    (.next (s.moveEngine g m) : Host.Outcome State Fault Refusal) = .next s := by
  rw [h, moveEngine_false]

/-- The guard of an IO row fails outside its state and where the gate is closed. -/
theorem ioGuard_eq_false {e : Engine} {p : Phase} (b : Bool) (h : e.st ≠ p ∨ e.devReady = false) :
    (decide (e.st = p) && e.devReady && b) = false := by
  rcases h with h | h <;> simp [h]

/-- The engine asserts no write-enable outside IO_WRITE and where the gate is closed (R161 to R163, R176). -/
theorem csrWe_eq_false {e : Engine} (irdy : Bool) (h : e.st ≠ .ioWrite ∨ e.devReady = false) :
    e.csrWe irdy = false := by
  unfold Engine.csrWe
  split
  · next hst => simp [h.resolve_left (not_not_intro hst)]
  all_goals rfl

/-- Settles O35: outside its state each row's guard is false. -/
theorem unselectedStepRowsChangeNothing : Obligations.UnselectedStepRowsChangeNothing := by
  intro d sn f i wr c v s
  refine ⟨fun h => ⟨?_, ?_⟩, fun h => ?_, fun h => ⟨?_, ?_⟩, fun h => ⟨?_, ?_, ?_⟩⟩
  · exact next_moveEngine_of_guard _ s (by simp [h])
  · exact next_moveEngine_of_guard _ s (by simp [h])
  · exact next_moveEngine_of_guard _ s (by simp [h])
  · exact next_moveEngine_of_guard _ s (ioGuard_eq_false _ h)
  · exact next_moveEngine_of_guard _ s (ioGuard_eq_false _ h)
  · simp only [exec, execIoWriteStore, csrWe_eq_false true h, Bool.false_eq_true, if_false]
  · exact next_moveEngine_of_guard _ s (ioGuard_eq_false _ h)
  · exact next_moveEngine_of_guard _ s (ioGuard_eq_false _ h)

end Sys2Proof.Machine

/-! # Proofs: reset, invariants, ownership and the graph of the engine's states

What one row or one clock edge can do to the state is said once (`Engine.Move`, `State.Advance`); a property that this keeps
is kept by every step and by every operation (`step_keeps`, `exec_keeps`). Each invariant is then a statement about
`State.Advance` alone. -/

namespace Sys2Proof.Machine

/-! ## The engine's share of an edge, case by case -/

/-- A start with an I/O code writes the latches and claims the transaction (R168, R169). -/
theorem Engine.next_claimed {e : Engine} (i : Sample) (hst : e.st = .idle) (hs : starts i.frame i.irdy = true)
    (hc : claims i.cbe = true) : e.next i = (e.latch i.adIn i.cbe).claim := by
  unfold starts at hs
  simp [Engine.next, hst, hs, hc, Engine.latch, Engine.claim]

/-- DECODE is left whatever the inputs are (R172). -/
theorem Engine.next_decode {e : Engine} (i : Sample) (hst : e.st = .decode) : e.next i = e.goIo := by
  simp [Engine.next, hst, Engine.goIo]

/-- With the gate closed an IO state keeps everything (R176). -/
theorem Engine.next_stalls {e : Engine} (i : Sample) (hst : e.st = .ioRead ∨ e.st = .ioWrite)
    (hd : e.devReady = false) : e.next i = e := by
  rcases hst with h | h <;> simp [Engine.next, h, hd]

/-- The end condition, line by line (R173, R175). -/
theorem endsStay_iff {seen frame irdy : Bool} :
    endsStay seen frame irdy = true ↔ seen = true ∧ frame = false ∧ irdy = false := by
  simp [endsStay, and_assoc]

/-- The claimed codes, one by one (R92, R169). -/
theorem claims_iff {c : Command} : claims c = true ↔ c = ioReadCode ∨ c = ioWriteCode := by
  simp [claims]

/-- The target drives the bus in IO_READ with the gate open (R161 to R164). -/
theorem adOe_iff {e : Engine} : e.adOe = true ↔ e.st = .ioRead ∧ e.devReady = true := by
  unfold Engine.adOe
  cases e.st <;> simp

/-- Target-ready never stands without device-select, whatever the engine holds (R161 to R164). -/
theorem devsel_of_trdy {e : Engine} (h : e.trdy = true) : e.devsel = true := by
  unfold Engine.trdy at h
  unfold Engine.devsel
  split at h
  · cases h
  · cases h
  all_goals rfl

/-- The guard of an IO row holds only in its state. -/
theorem st_of_ioGuard {e : Engine} {p : Phase} {b : Bool} (h : (decide (e.st = p) && e.devReady && b) = true) :
    e.st = p := by
  obtain ⟨⟨hst, -⟩, -⟩ : (e.st = p ∧ e.devReady = true) ∧ b = true := by simpa using h
  exact hst

/-- The engine asserts the write-enable exactly at an edge that stores (R174). -/
theorem csrWe_iff {e : Engine} {irdy : Bool} :
    e.csrWe irdy = true ↔ e.st = .ioWrite ∧ e.devReady = true ∧ irdy = true := by
  unfold Engine.csrWe
  cases e.st <;> simp

/-! ## The graph of the engine's states -/

/-- IDLE is left only for DECODE, and only by a start with an I/O code (R169 to R171). -/
theorem Engine.next_st_of_idle {e : Engine} (i : Sample) (hst : e.st = .idle) :
    (e.next i).st =
      if i.frame = true ∧ i.irdy = true ∧ (i.cbe = ioReadCode ∨ i.cbe = ioWriteCode) then .decode else .idle := by
  simp only [← claims_iff]
  cases hs : starts i.frame i.irdy with
  | false =>
    rw [Engine.next_idle i hst hs, hst, if_neg]
    rintro ⟨hf, hi, -⟩
    simp [starts, hf, hi] at hs
  | true =>
    obtain ⟨hf, hi⟩ : i.frame = true ∧ i.irdy = true := by simpa [starts] using hs
    cases hc : claims i.cbe with
    | false => simp [Engine.next_ignored i hst hs hc, Engine.latch, hst]
    | true => simp [Engine.next_claimed i hst hs hc, Engine.claim, hf, hi]

/-- An IO state is left only for IDLE, exactly at an end edge with the gate open (R173, R175, R176, R178). -/
theorem Engine.next_st_of_io {e : Engine} (i : Sample) (hst : e.st = .ioRead ∨ e.st = .ioWrite) :
    (e.next i).st =
      if e.devReady = true ∧ e.irdySeen = true ∧ i.frame = false ∧ i.irdy = false then .idle else e.st := by
  simp only [← endsStay_iff]
  cases hd : e.devReady with
  | false => simp [Engine.next_stalls i hst hd]
  | true =>
    cases he : endsStay e.irdySeen i.frame i.irdy with
    | false => simp [Engine.next_waits i hst hd he, Engine.wait]
    | true => simp [Engine.next_ends i hst hd he, Engine.finish]

/-- Settles O36: one clause for each kind of state that an edge can meet. -/
theorem phaseGraph : Obligations.PhaseGraph := by
  intro s
  refine ⟨_, step_eq_clockEdge s, fun hst => ?_, fun hst => ?_, fun hst => ?_⟩
  all_goals rw [clockEdge_engine]
  · exact Engine.next_st_of_idle _ hst
  · rw [Engine.next_decode _ hst, Engine.goIo]
  · exact Engine.next_st_of_io _ hst

/-! ## What one row or one edge can do -/

/-- The moves of the engine (R168 to R176): what its share of one edge can be, whatever the inputs. -/
inductive Engine.Move (e : Engine) : Engine → Prop
  | hold : Move e e
  | latch (a : Word) (c : Command) (hst : e.st = .idle) : Move e (e.latch a c)
  | claim (a : Word) (c : Command) (hst : e.st = .idle) (hc : claims c = true) : Move e (e.latch a c).claim
  | goIo (hst : e.st = .decode) : Move e e.goIo
  | finish : Move e e.finish
  | wait (irdy : Bool) (hst : e.st = .ioRead ∨ e.st = .ioWrite) : Move e (e.wait irdy)

/-- The reference listing makes one of the moves. -/
theorem Engine.move_next (i : Sample) (e : Engine) : e.Move (e.next i) := by
  have hio (hst : e.st = .ioRead ∨ e.st = .ioWrite) : e.Move (e.next i) := by
    cases hd : e.devReady with
    | false => rw [Engine.next_stalls i hst hd]; exact .hold
    | true =>
      cases he : endsStay e.irdySeen i.frame i.irdy with
      | false => rw [Engine.next_waits i hst hd he]; exact .wait _ hst
      | true => rw [Engine.next_ends i hst hd he]; exact .finish
  cases hst : e.st with
  | idle =>
    cases hs : starts i.frame i.irdy with
    | false => rw [Engine.next_idle i hst hs]; exact .hold
    | true =>
      cases hc : claims i.cbe with
      | false => rw [Engine.next_ignored i hst hs hc]; exact .latch _ _ hst
      | true => rw [Engine.next_claimed i hst hs hc]; exact .claim _ _ hst hc
  | decode => rw [Engine.next_decode i hst]; exact .goIo hst
  | ioRead => exact hio (.inl hst)
  | ioWrite => exact hio (.inr hst)

/-- `t` is what one row or one clock edge can make of `s`: the engine makes one of its moves, the parameters stay, and of the
Configuration file only the command field and the latch can differ (`applyReset` is the file without those two). -/
structure State.Advance (s t : State) : Prop where
  engine : s.engine.Move t.engine
  config : t.config = s.config
  fixed : t.cfg.applyReset = s.cfg.applyReset

theorem CfgFile.write_applyReset (f : CfgFile) (o : Offset) (v : Word) : (f.write o v).applyReset = f.applyReset := by
  unfold CfgFile.write; split <;> rfl

/-- A clock edge advances the state, with or without `rst`. -/
theorem advance_clockEdge (i : Sample) (s : State) : s.Advance (s.clockEdge i) where
  engine := by rw [clockEdge_engine]; exact Engine.move_next i _
  config := clockEdge_config s i
  fixed := by rw [clockEdge_cfg]; split <;> rfl

/-- A guarded rule advances the state if its move is one of the engine's where the guard holds. -/
theorem advance_moveEngine {s : State} (g : Bool) (m : Engine → Engine)
    (h : g = true → s.engine.Move (m s.engine)) : s.Advance (s.moveEngine g m) where
  engine := by
    rw [moveEngine_engine]
    split
    · next hg => exact h hg
    · exact .hold
  config := moveEngine_config s g m
  fixed := by rw [moveEngine_cfg]

/-- A port write into the Configuration file advances the state. -/
theorem advance_writeCfg (o : Offset) (v : Word) (s : State) : s.Advance (s.writeCfg o v) :=
  ⟨.hold, rfl, CfgFile.write_applyReset s.cfg o v⟩

/-- The store row advances the state. -/
theorem advance_store (v : Word) (s : State) :
    s.Advance (if s.engine.csrWe true then s.writeCsr s.engine.off v else s) := by
  split <;> exact ⟨.hold, rfl, rfl⟩

section Keeps

variable {P : State → Prop} (hP : ∀ s t : State, s.Advance t → P s → P t)
include hP

/-- What one edge keeps, a whole transaction keeps. -/
theorem busCommand_keeps_of_advance (c : Command) (a : Word) {s : State} (h : P s) : P (s.busCommand c a) :=
  busCommand_keeps s (fun s i => hP s _ (advance_clockEdge i s)) (fun s _ => hP s _ ⟨.hold, rfl, rfl⟩) c a h

/-- A property that every row and every clock edge keeps is kept by a step, which answers a next state. -/
theorem step_keeps {s : State} (h : P s) : ∃ t, step s = .next t ∧ P t :=
  have hedge : P (s.clockEdge s.presented) := hP s _ (advance_clockEdge s.presented s) h
  ⟨_, step_eq_clockEdge s, hP (s.clockEdge s.presented) _ ⟨.hold, rfl, rfl⟩ hedge⟩

/-- A property that every row and every clock edge keeps is kept by every operation, whole transactions among them. -/
theorem exec_keeps (i : Instr) {s : State} (h : P s) : ∃ t, exec i s = .next t ∧ P t := by
  cases i with
  | ign0000 | ign0001 | ior | iow | ign0100 | ign0101 | ign0110 | ign0111 | ign1000 | ign1001 | ign1010 | ign1011
  | ign1100 | ign1101 | ign1110 | ign1111 => exact ⟨_, rfl, busCommand_keeps_of_advance hP _ _ h⟩
  | idleHold | ioStall | cfgHold => exact ⟨_, rfl, h⟩
  | idleLatchClaim _ _ wr =>
    have hcode : claims (0b001#3 ++ BitVec.ofBool wr) = true := by cases wr <;> rfl
    exact ⟨_, rfl, hP s _ (advance_moveEngine _ _ fun hg => .claim _ _ (of_decide_eq_true hg) hcode) h⟩
  | idleLatchIgnore =>
    refine ⟨_, rfl, hP s _ (advance_moveEngine _ _ fun hg => ?_) h⟩
    obtain ⟨hst, -⟩ := Bool.and_eq_true_iff.mp hg
    exact .latch _ _ (of_decide_eq_true hst)
  | decodeGo => exact ⟨_, rfl, hP s _ (advance_moveEngine _ _ fun hg => .goIo (of_decide_eq_true hg)) h⟩
  | ioReadEnd | ioWriteEnd => exact ⟨_, rfl, hP s _ (advance_moveEngine _ _ fun _ => .finish) h⟩
  | ioReadWait => exact ⟨_, rfl, hP s _ (advance_moveEngine _ _ fun hg => .wait _ (.inl (st_of_ioGuard hg))) h⟩
  | ioWriteWait => exact ⟨_, rfl, hP s _ (advance_moveEngine _ _ fun hg => .wait _ (.inr (st_of_ioGuard hg))) h⟩
  | ioWriteStore => exact ⟨_, rfl, hP s _ (advance_store _ s) h⟩
  | cfgRd00 | cfgRd04 | cfgRd08 | cfgRd0C | cfgRdOther | cfgLatch | csrRd00 | csrRd04 | csrRdOther | csrWr00 | csrWr04
  | csrWrOther => exact ⟨_, rfl, hP s _ ⟨.hold, rfl, rfl⟩ h⟩
  | cfgWr04 | cfgWrOther => exact ⟨_, rfl, hP s _ (advance_writeCfg _ _ s) h⟩

end Keeps

/-! ## The invariants of R43 -/

/-- What R43 items 1 to 4 say of the engine, by its state; items 5 and 6 follow from them (`inv_iff`). -/
def Engine.Sound (e : Engine) : Prop :=
  match e.st with
  | .idle => e.devReady = false ∧ e.irdySeen = false
  | .decode => e.devReady = false ∧ e.irdySeen = false ∧ claims e.cmdLatch = true
  | .ioRead => e.devReady = true ∧ e.cmdLatch = ioReadCode
  | .ioWrite => e.devReady = true ∧ e.cmdLatch = ioWriteCode

theorem inv_iff {s : State} : s.Inv ↔ s.engine.Sound ∧ s.cfg.fixedHold := by
  constructor
  · rintro ⟨hflags, hready, hdecode, hread, hwrite, -, -, hfixed⟩
    refine ⟨?_, hfixed⟩
    unfold Engine.Sound
    cases hst : s.engine.st <;> simp_all [claims_iff]
  · rintro ⟨hsound, hfixed⟩
    unfold Engine.Sound at hsound
    constructor
    case trdyClaimed => exact devsel_of_trdy
    case fixedHold => exact hfixed
    all_goals cases hst : s.engine.st <;> simp_all [claims_iff, adOe_iff]

/-- Every move of the engine keeps it sound. -/
theorem Engine.Move.sound {e e' : Engine} (hm : e.Move e') (h : e.Sound) : e'.Sound := by
  unfold Engine.Sound at *
  cases hm with
  | hold => exact h
  | latch a c hst => simpa [hst, Engine.latch] using h
  | claim a c hst hc => simpa [hst, hc, Engine.latch, Engine.claim] using h
  | goIo hst =>
    obtain ⟨-, -, hclaims⟩ : _ ∧ _ ∧ _ := by simpa only [hst] using h
    have hne : ioWriteCode ≠ ioReadCode := by decide
    rcases claims_iff.mp hclaims with hc | hc <;> simp [Engine.goIo, hc, hne]
  | finish => exact ⟨rfl, rfl⟩
  | wait irdy hst => rcases hst with hst | hst <;> simpa [hst, Engine.wait] using h

theorem inv_of_advance (s t : State) (ha : s.Advance t) (h : s.Inv) : t.Inv := by
  obtain ⟨hsound, hfixed⟩ := inv_iff.mp h
  exact inv_iff.mpr ⟨ha.engine.sound hsound, ha.fixed.trans hfixed⟩

/-- Settles O13: an edge advances the state, and advancing keeps the invariants. -/
theorem stepKeepsInvariants : Obligations.StepKeepsInvariants :=
  fun _ h => step_keeps inv_of_advance h

/-- Settles O14: as for a step; a transaction is a run of edges. -/
theorem operationsKeepInvariants : Obligations.OperationsKeepInvariants :=
  fun i _ h => exec_keeps inv_of_advance i h

/-! ## Fixed fields -/

/-- `t` has the parameters of `s`, and its Configuration file but for the command field and the latch. -/
abbrev State.SameFixed (s t : State) : Prop :=
  t.config = s.config ∧ { t.cfg with command := s.cfg.command, dout := s.cfg.dout } = s.cfg

theorem sameFixed_of_advance (s₀ s t : State) (ha : s.Advance t) (h : s₀.SameFixed s) : s₀.SameFixed t := by
  obtain ⟨hconfig, hcfg⟩ := h
  have hrest : { t.cfg with command := s₀.cfg.command, dout := s₀.cfg.dout } =
      { s.cfg with command := s₀.cfg.command, dout := s₀.cfg.dout } :=
    congrArg (fun f : CfgFile => { f with command := s₀.cfg.command, dout := s₀.cfg.dout }) ha.fixed
  exact ⟨ha.config.trans hconfig, hrest.trans hcfg⟩

/-- Settles O15: what is kept from a given state on is again kept by everything that advances a state. -/
theorem fixedFieldsNeverChange : Obligations.FixedFieldsNeverChange :=
  ⟨fun i s => exec_keeps (sameFixed_of_advance s) i ⟨rfl, rfl⟩,
    fun s => step_keeps (sameFixed_of_advance s) ⟨rfl, rfl⟩⟩

/-! ## Ownership of the register files -/

/-- Only a store changes the Command/Status file, and then no offset but the addressed one (R40, R174). -/
theorem csrNext_ne {i : Sample} {s : State} (h : s.csrNext i ≠ s.csr) :
    s.engine.st = .ioWrite ∧ s.engine.devReady = true ∧ i.irdy = true ∧
      ∀ o, o ≠ s.engine.off → (s.csrNext i).read o = s.csr.read o := by
  unfold State.csrNext at *
  split
  · next hwe =>
    obtain ⟨hst, hd, hi⟩ := csrWe_iff.mp hwe
    exact ⟨hst, hd, hi, fun o ho => CsrFile.read_write_other _ _ _ _ ho⟩
  · next hwe => exact absurd (if_neg hwe) h

/-- Only a write to 0x04 changes the command field (R127, R128). -/
theorem CfgFile.next_command_ne {i : Sample} {f : CfgFile} (h : (f.next i).command ≠ f.command) :
    i.cfgWe = true ∧ i.cfgAddr = 0x04#8 := by
  simpa using (ite_ne_right_iff.mp h).1

/-- Only a latch load changes the output latch (R126). -/
theorem CfgFile.next_dout_ne {i : Sample} {f : CfgFile} (h : (f.next i).dout ≠ f.dout) : i.cfgRe = true :=
  (ite_ne_right_iff.mp h).1

/-- Settles O16: where `rst` does not act, a register file is as its own share of the edge leaves it. -/
theorem registerFilesOwnTheirState : Obligations.RegisterFilesOwnTheirState := by
  intro s
  refine ⟨_, step_eq_clockEdge s, ?_⟩
  rw [clockEdge_csr, clockEdge_cfg]
  cases hr : s.presented.rst && s.config.rstRegs with
  | true =>
    have hacts := Bool.and_eq_true_iff.mp hr
    exact ⟨fun _ => .inl hacts, fun _ => .inl hacts, fun _ => .inl hacts⟩
  | false => exact ⟨fun h => .inr (csrNext_ne h), fun h => .inr (CfgFile.next_command_ne h),
      fun h => .inr (CfgFile.next_dout_ne h)⟩

/-! ## Reset -/

/-- Settles O11: the fields of `State.resetOf`, read off; the six base-address slots one by one. -/
theorem resetState : Obligations.ResetState := by
  intro c
  have hbar : ∀ k : Fin 6, CfgFile.reset.bar[k] = 0x00000000#32 := by decide
  exact ⟨rfl, rfl, rfl, rfl, rfl, rfl, rfl, rfl, rfl, rfl, rfl, rfl, hbar, rfl, rfl, rfl, rfl, rfl, rfl, rfl, rfl, rfl⟩

/-- Settles O12: IDLE with both flags clear is sound, and the fixed fields are those of reset. -/
theorem resetHasInvariants : Obligations.ResetHasInvariants :=
  fun _ => inv_iff.mpr ⟨⟨rfl, rfl⟩, rfl⟩

end Sys2Proof.Machine

/-! # Proofs: the step as the reference listing, the shared bus, and the bits of an address

A step with a sample in front is one edge of the reference listing with that sample (`step_cons`). What a part of the state
does not depend on is then said of its own share of the edge: an input of the sample, or all of an address but its offset. -/

namespace Sys2Proof.Machine

/-- Settles O8: the theorem of the reference listing. -/
theorem stepIsTheReferenceListing : Obligations.StepIsTheReferenceListing := step_eq_clockEdge

/-- A step with the sample `i` in front is the edge of the listing with `i`, and leaves the rest pending (R7). -/
theorem step_cons (s : State) (i : Sample) (is : List Sample) :
    step { s with stim := i :: is } = .next { s.clockEdge i with stim := is } := by
  have hedge : ({ s with stim := i :: is } : State).clockEdge i = { s.clockEdge i with stim := i :: is } := by
    simp only [State.clockEdge, State.applyRst]
    split <;> rfl
  rw [step_eq_clockEdge, presented_cons _ i is rfl, hedge]
  rfl

/-! ## The shared bus -/

/-- The bus a cycle shows is what both parties' drives resolve to (R75). -/
theorem clockEdge_bus (s : State) (i : Sample) :
    (s.clockEdge i).shown.bus = resolveBus s.targetDrive i.adDrive := by
  rw [clockEdge_shown]; rfl

theorem clockEdge_adOut (s : State) (i : Sample) : (s.clockEdge i).shown.adOut = s.adOut := by
  rw [clockEdge_shown]; rfl

theorem targetDrive_of_adOe {s : State} (h : s.engine.adOe = true) : s.targetDrive = some s.adOut := if_pos h

theorem targetDrive_of_not_adOe {s : State} (h : s.engine.adOe = false) : s.targetDrive = none := by
  simp [State.targetDrive, h]

/-- Settles O39: `resolveBus` at each of the four combinations of drivers. -/
theorem sharedBusIsResolved : Obligations.SharedBusIsResolved := by
  intro s
  refine ⟨_, step_eq_clockEdge s, ?_⟩
  simp only [clockEdge_bus, clockEdge_adOut]
  refine ⟨fun ht hi => ?_, fun ht v hi => ?_, fun ht hi => ?_, fun ht v hi => ?_⟩
  · rw [targetDrive_of_adOe ht, hi]; rfl
  · rw [targetDrive_of_not_adOe ht, hi]; rfl
  · rw [targetDrive_of_not_adOe ht, hi]; rfl
  · rw [targetDrive_of_adOe ht, hi]; rfl

/-! ## The configuration port and the bus -/

/-- `i` with other inputs at the configuration port. -/
abbrev Sample.withPort (i : Sample) (we re : Bool) (o : Offset) (v : Word) : Sample :=
  { i with cfgWe := we, cfgRe := re, cfgAddr := o, cfgWdata := v }

/-- `i` with other inputs on the bus. -/
abbrev Sample.withBus (i : Sample) (frame irdy : Bool) (cbe : Command) (drive : Option Word) : Sample :=
  { i with frame := frame, irdy := irdy, cbe := cbe, adDrive := drive }

/-- No move of the engine reads the configuration port. -/
theorem Engine.next_withPort (e : Engine) (i : Sample) (we re : Bool) (o : Offset) (v : Word) :
    e.next (Sample.withPort i we re o v) = e.next i := rfl

/-- No store reads the configuration port. -/
theorem csrNext_withPort (s : State) (i : Sample) (we re : Bool) (o : Offset) (v : Word) :
    s.csrNext (Sample.withPort i we re o v) = s.csrNext i := rfl

/-- The Configuration file's share reads its own port alone. -/
theorem CfgFile.next_withBus (f : CfgFile) (i : Sample) (frame irdy : Bool) (cbe : Command) (drive : Option Word) :
    f.next (Sample.withBus i frame irdy cbe drive) = f.next i := rfl

/-- Settles O43: part by part, the share of the edge does not read the other side's inputs. -/
theorem portAndBusAreIndependent : Obligations.PortAndBusAreIndependent := by
  intro s i is
  refine ⟨_, step_cons s i is, fun we re o v => ?_, fun f r c a => ?_⟩
  · refine ⟨_, step_cons s (Sample.withPort i we re o v) is, ?_⟩
    simp only [clockEdge_engine, clockEdge_csr, clockEdge_adOut, clockEdge_bus, Engine.next_withPort, csrNext_withPort,
      and_self]
  · refine ⟨_, step_cons s (Sample.withBus i f r c a) is, ?_⟩
    simp only [clockEdge_cfg, CfgFile.next_withBus]

/-! ## The bits of an address -/

/-- `s` with the address `a` latched. -/
abbrev State.withAddress (a : Word) (s : State) : State := { s with engine := { s.engine with addrLatch := a } }

/-- The mask keeps exactly the bits that the offset is made of (R61). -/
theorem offsetOf_and_mask (a : Word) : offsetOf (a &&& 0x0000003C#32) = offsetOf a := by
  have hindex : (a &&& 0x0000003C#32).extractLsb' 2 4 = a.extractLsb' 2 4 := by
    have hmask : (0x0000003C#32).extractLsb' 2 4 = BitVec.allOnes 4 := by decide
    rw [BitVec.extractLsb'_and, hmask, BitVec.and_allOnes]
  rw [offsetOf, hindex, offsetOf]

section SameOffset

variable {a b : Word} (h : offsetOf a = offsetOf b)
include h

/-- The offset wire is the offset of the latched address (R166). -/
theorem off_withAddress_congr (s : State) : (s.withAddress a).engine.off = (s.withAddress b).engine.off := h

/-- A store goes to the same word at both addresses. -/
theorem csrNext_withAddress_congr (s : State) (i : Sample) :
    (s.withAddress a).csrNext i = (s.withAddress b).csrNext i := by
  rw [State.csrNext, off_withAddress_congr h]; rfl

/-- A read shows the same word at both addresses. -/
theorem adOut_withAddress_congr (s : State) : (s.withAddress a).adOut = (s.withAddress b).adOut := by
  rw [State.adOut, off_withAddress_congr h]; rfl

/-- A cycle shows the same at both addresses. -/
theorem shown_withAddress_congr (s : State) (i : Sample) :
    ((s.withAddress a).clockEdge i).shown = ((s.withAddress b).clockEdge i).shown := by
  simp only [clockEdge_shown, driveCfgRdata_shown, driveCsrRdata_shown, State.showCycle, State.targetDrive,
    off_withAddress_congr h, adOut_withAddress_congr h]
  rfl

end SameOffset

/-- The address the engine holds shows in its next state in the address latch alone. -/
theorem Engine.next_except_addrLatch (e : Engine) (i : Sample) (a b : Word) :
    { ({ e with addrLatch := a } : Engine).next i with addrLatch := b } = { e.next i with addrLatch := b } := by
  obtain ⟨st, addr, cmd, devReady, irdySeen⟩ := e
  cases st with
  | idle => dsimp only [Engine.next]; split <;> rfl
  | decode => rfl
  | ioRead | ioWrite =>
    dsimp only [Engine.next]
    split
    · split <;> rfl
    · rfl

/-- Settles O44: both addresses have one offset, and every share of the edge but the latch reads the offset alone. -/
theorem onlyTheIndexBitsSelect : Obligations.OnlyTheIndexBitsSelect := by
  intro a s i is
  have hoff : offsetOf a = offsetOf (a &&& 0x0000003C#32) := (offsetOf_and_mask a).symm
  refine ⟨hoff, ?_⟩
  generalize a &&& 0x0000003C#32 = b at hoff ⊢
  have hmove : { (s.withAddress a).engine.next i with addrLatch := b } =
      { (s.withAddress b).engine.next i with addrLatch := b } :=
    (Engine.next_except_addrLatch s.engine i a b).trans (Engine.next_except_addrLatch s.engine i b b).symm
  obtain ⟨hst, -, -, hdevReady, hirdySeen⟩ := Engine.mk.inj hmove
  refine ⟨_, _, step_cons (s.withAddress a) i is, step_cons (s.withAddress b) i is, ?_⟩
  simp only [clockEdge_csr, clockEdge_cfg, clockEdge_engine, csrNext_withAddress_congr hoff, shown_withAddress_congr hoff,
    true_and]
  exact ⟨hst, hdevReady, hirdySeen⟩

end Sys2Proof.Machine

/-! # Proofs: encoding

A word is the packing of its fields (`packStep_fields`, `packPort_fields`, `packCommand_cbeField`), and each slot's
decoder is said once, on a packed word. What the encoder and the table do to a word is then compared with that, field by field. -/

namespace Sys2Proof

open Machine

/-! ## A word is the packing of its fields -/

theorem phaseCode_phaseOf (c : BitVec 2) : phaseCode (phaseOf c) = c := by
  revert c; decide

theorem ofBool_getLsbD (w : PortWord) (k : Nat) : BitVec.ofBool (w.getLsbD k) = w.extractLsb' k 1 := by
  ext j hj
  obtain rfl : j = 0 := by omega
  simp

/-- The step-select word, read field by field (R104). -/
theorem packStep_fields (w : PortWord) :
    packStep (phaseOf (w.extractLsb' 8 2)) (w.getLsbD 7) (w.getLsbD 6) (w.getLsbD 5) (w.getLsbD 4) (cbeField w) = w := by
  simp only [packStep, phaseCode_phaseOf, ofBool_getLsbD, cbeField, BitVec.extractLsb'_append_extractLsb'_eq_extractLsb',
    BitVec.extractLsb'_eq_self]

/-- The port word, read field by field (R96, R97). -/
theorem packPort_fields (w : PortWord) : packPort (w.getLsbD 9) (w.getLsbD 8) (offsetField w) = w := by
  simp only [packPort, ofBool_getLsbD, offsetField, BitVec.extractLsb'_append_extractLsb'_eq_extractLsb',
    BitVec.extractLsb'_eq_self]

theorem packCommand_cbeField {w : PortWord} (h : w.extractLsb' 4 6 = 0#6) : packCommand (cbeField w) = w := by
  rw [packCommand, cbeField, ← h]
  exact (BitVec.extractLsb'_append_extractLsb'_eq_extractLsb' rfl).trans BitVec.extractLsb'_eq_self


/-! ## Each slot's decoder, on a packed word -/

section Packed

variable (d sn f i : Bool) (c : Command) (v : Word)

/-- In IDLE the start condition and the command code choose the row (R168 to R171). -/
theorem decodeTransition_idle :
    decodeTransition (packStep .idle d sn f i c) v =
      if f && i then
        if c = ioReadCode ∨ c = ioWriteCode then .idleLatchClaim d sn (c.getLsbD 0) v else .idleLatchIgnore d sn c v
      else .idleHold d sn f i c := by
  simp only [decodeTransition, packStep_phase, phaseOf_phaseCode, packStep_devReady, packStep_irdySeen, packStep_frame,
    packStep_irdy, packStep_cbe]

/-- DECODE has one row (R172). -/
theorem decodeTransition_decode : decodeTransition (packStep .decode d sn f i c) v = .decodeGo d sn f i c := by
  simp only [decodeTransition, packStep_phase, phaseOf_phaseCode, packStep_devReady, packStep_irdySeen, packStep_frame,
    packStep_irdy, packStep_cbe]

/-- In IO_READ the gate and the end condition choose the row (R173, R176). -/
theorem decodeTransition_ioRead :
    decodeTransition (packStep .ioRead d sn f i c) v =
      if d then if endBits sn f i then .ioReadEnd c else .ioReadWait sn f i c else .ioStall false sn f i c := by
  simp only [decodeTransition, packStep_phase, phaseOf_phaseCode, packStep_devReady, packStep_irdySeen, packStep_frame,
    packStep_irdy, packStep_cbe]

/-- In IO_WRITE likewise (R175, R176). -/
theorem decodeTransition_ioWrite :
    decodeTransition (packStep .ioWrite d sn f i c) v =
      if d then if endBits sn f i then .ioWriteEnd c else .ioWriteWait sn f i c else .ioStall true sn f i c := by
  simp only [decodeTransition, packStep_phase, phaseOf_phaseCode, packStep_devReady, packStep_irdySeen, packStep_frame,
    packStep_irdy, packStep_cbe]

theorem decodeStore_packStep (p : Phase) :
    decodeStore (packStep p d sn f i c) v =
      if p = .ioWrite ∧ d = true ∧ i = true then .ok (.ioWriteStore sn f c v) else .error .noStore := by
  simp only [decodeStore, packStep_phase, phaseOf_phaseCode, packStep_devReady, packStep_irdySeen, packStep_frame,
    packStep_irdy, packStep_cbe]

theorem decodeCommand_packCommand : decodeCommand (packCommand c) v = .ok (decodeCommandCode c v) := by
  have hhigh : (packCommand c).extractLsb' 4 6 = 0#6 := BitVec.extractLsb'_append_eq_left
  have hcode : cbeField (packCommand c) = c := BitVec.extractLsb'_append_eq_right
  rw [decodeCommand, if_pos hhigh, hcode]

variable (we re : Bool) (o : Offset)

theorem decodeCfgMux_packPort :
    decodeCfgMux (packPort we re o) =
      if o = 0x00#8 then .cfgRd00 we re
      else if o = 0x04#8 then .cfgRd04 we re
      else if o = 0x08#8 then .cfgRd08 we re
      else if o = 0x0C#8 then .cfgRd0C we re
      else .cfgRdOther we re o := by
  simp only [decodeCfgMux, packPort_we, packPort_re, packPort_offset]

theorem decodeCfgWrite_packPort :
    decodeCfgWrite (packPort we re o) v =
      if we then if o = 0x04#8 then .ok (.cfgWr04 re v) else .ok (.cfgWrOther re o v) else .error .noWrite := by
  simp only [decodeCfgWrite, packPort_we, packPort_re, packPort_offset]

theorem decodeCsrMux_packPort :
    decodeCsrMux (packPort we re o) =
      if o = 0x00#8 then .csrRd00 we re else if o = 0x04#8 then .csrRd04 we re else .csrRdOther we re o := by
  simp only [decodeCsrMux, packPort_we, packPort_re, packPort_offset]

theorem decodeCsrWrite_packPort :
    decodeCsrWrite (packPort we re o) v =
      if we then
        if o = 0x00#8 then .ok (.csrWr00 re v)
        else if o = 0x04#8 then .ok (.csrWr04 re v)
        else .ok (.csrWrOther re o v)
      else .error .noWrite := by
  simp only [decodeCsrWrite, packPort_we, packPort_re, packPort_offset]

end Packed

/-! ## Which operands a default row admits (the `except` lists of R104) -/

theorem wellFormed_idleLatchIgnore {d sn : Bool} {c : Command} {v : Word} :
    (Instr.idleLatchIgnore d sn c v).wellFormed = true ↔ ¬(c = ioReadCode ∨ c = ioWriteCode) := by
  simp [Instr.wellFormed, isIoCode]

theorem wellFormed_idleHold {d sn f i : Bool} {c : Command} :
    (Instr.idleHold d sn f i c).wellFormed = true ↔ ¬(f && i) = true := by
  simp only [Instr.wellFormed, Bool.not_eq_true', Bool.not_eq_true]

theorem wellFormed_ioReadWait {sn f i : Bool} {c : Command} :
    (Instr.ioReadWait sn f i c).wellFormed = true ↔ ¬endBits sn f i = true := by
  simp only [Instr.wellFormed, endBits, Bool.not_eq_true', Bool.not_eq_true]

theorem wellFormed_ioWriteWait {sn f i : Bool} {c : Command} :
    (Instr.ioWriteWait sn f i c).wellFormed = true ↔ ¬endBits sn f i = true := wellFormed_ioReadWait (c := c)

theorem wellFormed_cfgRdOther {we re : Bool} {o : Offset} :
    (Instr.cfgRdOther we re o).wellFormed = true ↔ ¬o = 0x00#8 ∧ ¬o = 0x04#8 ∧ ¬o = 0x08#8 ∧ ¬o = 0x0C#8 := by
  simp [Instr.wellFormed, isCfgMapped, and_assoc]

theorem wellFormed_cfgWrOther {re : Bool} {o : Offset} {v : Word} :
    (Instr.cfgWrOther re o v).wellFormed = true ↔ ¬o = 0x04#8 := by
  simp [Instr.wellFormed]

theorem wellFormed_csrRdOther {we re : Bool} {o : Offset} :
    (Instr.csrRdOther we re o).wellFormed = true ↔ ¬o = 0x00#8 ∧ ¬o = 0x04#8 := by
  simp [Instr.wellFormed, isCsrMapped]

theorem wellFormed_csrWrOther {re : Bool} {o : Offset} {v : Word} :
    (Instr.csrWrOther re o v).wellFormed = true ↔ ¬o = 0x00#8 ∧ ¬o = 0x04#8 :=
  wellFormed_csrRdOther (we := true) (re := re)

/-- The two codes of the claim row are the I/O codes, told apart by bit 0 (R92, R104). -/
theorem ioCode_cases (wr : Bool) :
    (0b001#3 ++ BitVec.ofBool wr = ioReadCode ∨ 0b001#3 ++ BitVec.ofBool wr = ioWriteCode) ∧
      (0b001#3 ++ BitVec.ofBool wr).getLsbD 0 = wr := by
  cases wr <;> decide

/-! ## Decode after encode -/

/-- The slot of a well-formed operation decodes the operation's word and operand to the operation. -/
theorem decodeWord_word {i : Instr} (h : i.wellFormed = true) : decodeWord i.slot i.word i.operand = .ok i := by
  cases i
  all_goals dsimp only [Instr.slot, Instr.word, Instr.operand, decodeWord]
  case idleLatchClaim d sn wr v =>
    obtain ⟨hcode, hbit⟩ := ioCode_cases wr
    rw [decodeTransition_idle, Bool.and_self, if_pos rfl, if_pos hcode, hbit]
  case idleLatchIgnore => rw [decodeTransition_idle, Bool.and_self, if_pos rfl, if_neg (wellFormed_idleLatchIgnore.mp h)]
  case idleHold => rw [decodeTransition_idle, if_neg (wellFormed_idleHold.mp h)]
  case decodeGo => rw [decodeTransition_decode]
  case ioReadEnd => rw [decodeTransition_ioRead]; rfl
  case ioReadWait => rw [decodeTransition_ioRead, if_pos rfl, if_neg (wellFormed_ioReadWait.mp h)]
  case ioWriteStore => rw [decodeStore_packStep, if_pos ⟨rfl, rfl, rfl⟩]
  case ioWriteEnd => rw [decodeTransition_ioWrite]; rfl
  case ioWriteWait => rw [decodeTransition_ioWrite, if_pos rfl, if_neg (wellFormed_ioWriteWait.mp h)]
  case ioStall wr _ _ _ _ =>
    cases wr with
    | false => exact congrArg _ (decodeTransition_ioRead ..)
    | true => exact congrArg _ (decodeTransition_ioWrite ..)
  case cfgRd00 | cfgRd04 | cfgRd08 | cfgRd0C => exact congrArg _ (decodeCfgMux_packPort ..)
  case cfgRdOther =>
    obtain ⟨h0, h4, h8, hC⟩ := wellFormed_cfgRdOther.mp h
    rw [decodeCfgMux_packPort, if_neg h0, if_neg h4, if_neg h8, if_neg hC]
  case cfgLatch | cfgHold => exact decodeCfgLatch_packPort ..
  case cfgWr04 => exact decodeCfgWrite_packPort ..
  case cfgWrOther => rw [decodeCfgWrite_packPort, if_pos rfl, if_neg (wellFormed_cfgWrOther.mp h)]
  case csrRd00 | csrRd04 => exact congrArg _ (decodeCsrMux_packPort ..)
  case csrRdOther =>
    obtain ⟨h0, h4⟩ := wellFormed_csrRdOther.mp h
    rw [decodeCsrMux_packPort, if_neg h0, if_neg h4]
  case csrWr00 | csrWr04 => exact decodeCsrWrite_packPort ..
  case csrWrOther =>
    obtain ⟨h0, h4⟩ := wellFormed_csrWrOther.mp h
    rw [decodeCsrWrite_packPort, if_pos rfl, if_neg h0, if_neg h4]
  all_goals exact decodeCommand_packCommand ..

theorem slotOf_slotCode (sl : Slot) : slotOf (slotCode sl) = sl := by
  cases sl <;> rfl

/-- The six bytes of a word and an operand read as that word, in its slot, beside that operand (assumption 13). -/
theorem decodeBytes_layBytes (sl : Slot) (w : PortWord) (d : Word) :
    decodeBytes (layBytes sl w d) = decodeWord sl w d := by
  have hreserved : (0#3 ++ slotCode sl ++ w.extractLsb' 8 2).extractLsb' 5 3 = 0#3 :=
    (BitVec.extractLsb'_append_eq_of_le (by decide)).trans BitVec.extractLsb'_append_eq_left
  have htag : (0#3 ++ slotCode sl ++ w.extractLsb' 8 2).extractLsb' 2 3 = slotCode sl :=
    (BitVec.extractLsb'_append_eq_of_le (by decide)).trans BitVec.extractLsb'_append_eq_right
  have hword : (0#3 ++ slotCode sl ++ w.extractLsb' 8 2).extractLsb' 0 2 ++ w.extractLsb' 0 8 = w := by
    rw [BitVec.extractLsb'_append_eq_right]
    exact (BitVec.extractLsb'_append_extractLsb'_eq_extractLsb' rfl).trans BitVec.extractLsb'_eq_self
  have hoperand : d.extractLsb' 24 8 ++ d.extractLsb' 16 8 ++ d.extractLsb' 8 8 ++ d.extractLsb' 0 8 = d := by
    simp only [BitVec.extractLsb'_append_extractLsb'_eq_extractLsb', BitVec.extractLsb'_eq_self]
  rw [layBytes, decodeBytes, if_pos hreserved, htag, slotOf_slotCode, hword, hoperand]

/-- Settles O2: the bytes give back the word and the operand, and the operation's slot decodes those to the operation. -/
theorem decodeOfEncodeIsIdentity : Obligations.DecodeOfEncodeIsIdentity :=
  fun _ h => (decodeBytes_layBytes ..).trans (decodeWord_word h)

/-! ## Encode after decode -/

theorem exists_packStep (w : PortWord) : ∃ p d sn f i c, packStep p d sn f i c = w := ⟨_, _, _, _, _, _, packStep_fields w⟩

theorem exists_packPort (w : PortWord) : ∃ we re o, packPort we re o = w := ⟨_, _, _, packPort_fields w⟩

/-- `i` is a well-formed operation of slot `sl` whose word is `w`, and whose operand is `d` or none. -/
abbrev Instr.Encodes (i : Instr) (sl : Slot) (w : PortWord) (d : Word) : Prop :=
  i.wellFormed = true ∧ i.slot = sl ∧ i.word = w ∧ (i.operand = d ∨ i.operand = 0#32)

theorem encodes_decodeTransition (w : PortWord) (v : Word) : (decodeTransition w v).Encodes .transition w v := by
  obtain ⟨p, d, sn, f, i, c, rfl⟩ := exists_packStep w
  cases p with
  | idle =>
    rw [decodeTransition_idle]
    split_ifs with hstart hcode
    · obtain ⟨rfl, rfl⟩ := Bool.and_eq_true_iff.mp hstart
      rcases hcode with rfl | rfl <;> exact ⟨rfl, rfl, rfl, .inl rfl⟩
    · obtain ⟨rfl, rfl⟩ := Bool.and_eq_true_iff.mp hstart
      exact ⟨wellFormed_idleLatchIgnore.mpr hcode, rfl, rfl, .inl rfl⟩
    · exact ⟨wellFormed_idleHold.mpr hstart, rfl, rfl, .inr rfl⟩
  | decode => rw [decodeTransition_decode]; exact ⟨rfl, rfl, rfl, .inr rfl⟩
  | ioRead | ioWrite =>
    simp only [decodeTransition_ioRead, decodeTransition_ioWrite]
    cases d with
    | false => exact ⟨rfl, rfl, rfl, .inr rfl⟩
    | true =>
      rw [if_pos rfl]
      split_ifs with hend
      · obtain ⟨rfl, rfl, rfl⟩ := endsStay_iff.mp hend
        exact ⟨rfl, rfl, rfl, .inr rfl⟩
      · exact ⟨wellFormed_ioReadWait (c := c).mpr hend, rfl, rfl, .inr rfl⟩

theorem encodes_of_decodeStore {w : PortWord} {v : Word} {r : Instr} (h : decodeStore w v = .ok r) :
    r.Encodes .store w v := by
  obtain ⟨p, d, sn, f, i, c, rfl⟩ := exists_packStep w
  rw [decodeStore_packStep] at h
  split_ifs at h with hstore
  obtain ⟨rfl, rfl, rfl⟩ := hstore
  cases h
  exact ⟨rfl, rfl, rfl, .inl rfl⟩

theorem encodes_decodeCfgMux (w : PortWord) (v : Word) : (decodeCfgMux w).Encodes .cfgMux w v := by
  obtain ⟨we, re, o, rfl⟩ := exists_packPort w
  rw [decodeCfgMux_packPort]
  split_ifs with h0 h4 h8 hC
  · subst h0; exact ⟨rfl, rfl, rfl, .inr rfl⟩
  · subst h4; exact ⟨rfl, rfl, rfl, .inr rfl⟩
  · subst h8; exact ⟨rfl, rfl, rfl, .inr rfl⟩
  · subst hC; exact ⟨rfl, rfl, rfl, .inr rfl⟩
  · exact ⟨wellFormed_cfgRdOther.mpr ⟨h0, h4, h8, hC⟩, rfl, rfl, .inr rfl⟩

theorem encodes_of_decodeCfgLatch {w : PortWord} {v : Word} {r : Instr} (h : decodeCfgLatch w = .ok r) :
    r.Encodes .cfgLatch w v := by
  obtain ⟨we, re, o, rfl⟩ := exists_packPort w
  rw [decodeCfgLatch_packPort] at h
  cases re <;> cases we <;> cases h <;> exact ⟨rfl, rfl, rfl, .inr rfl⟩

theorem encodes_of_decodeCfgWrite {w : PortWord} {v : Word} {r : Instr} (h : decodeCfgWrite w v = .ok r) :
    r.Encodes .cfgWrite w v := by
  obtain ⟨we, re, o, rfl⟩ := exists_packPort w
  rw [decodeCfgWrite_packPort] at h
  split_ifs at h with hwe h4 <;> cases h <;> subst hwe
  · subst h4; exact ⟨rfl, rfl, rfl, .inl rfl⟩
  · exact ⟨wellFormed_cfgWrOther.mpr h4, rfl, rfl, .inl rfl⟩

theorem encodes_decodeCsrMux (w : PortWord) (v : Word) : (decodeCsrMux w).Encodes .csrMux w v := by
  obtain ⟨we, re, o, rfl⟩ := exists_packPort w
  rw [decodeCsrMux_packPort]
  split_ifs with h0 h4
  · subst h0; exact ⟨rfl, rfl, rfl, .inr rfl⟩
  · subst h4; exact ⟨rfl, rfl, rfl, .inr rfl⟩
  · exact ⟨wellFormed_csrRdOther.mpr ⟨h0, h4⟩, rfl, rfl, .inr rfl⟩

theorem encodes_of_decodeCsrWrite {w : PortWord} {v : Word} {r : Instr} (h : decodeCsrWrite w v = .ok r) :
    r.Encodes .csrWrite w v := by
  obtain ⟨we, re, o, rfl⟩ := exists_packPort w
  rw [decodeCsrWrite_packPort] at h
  split_ifs at h with hwe h0 h4 <;> cases h <;> subst hwe
  · subst h0; exact ⟨rfl, rfl, rfl, .inl rfl⟩
  · subst h4; exact ⟨rfl, rfl, rfl, .inl rfl⟩
  · exact ⟨wellFormed_csrWrOther.mpr ⟨h0, h4⟩, rfl, rfl, .inl rfl⟩

/-- Each of the sixteen codes starts the transaction whose word it is (R92, R94). -/
theorem encodes_decodeCommandCode (c : Command) (a : Word) :
    (decodeCommandCode c a).Encodes .command (packCommand c) a := by
  obtain ⟨k⟩ := c
  fin_cases k <;> exact ⟨rfl, rfl, rfl, .inl rfl⟩

theorem encodes_of_decodeCommand {w : PortWord} {a : Word} {r : Instr} (h : decodeCommand w a = .ok r) :
    r.Encodes .command w a := by
  unfold decodeCommand at h
  split_ifs at h with hhigh
  cases h
  simpa only [packCommand_cbeField hhigh] using encodes_decodeCommandCode (cbeField w) a

/-- Settles O3: slot by slot, what is decoded encodes the word that was read. -/
theorem decodedOperationReencodes : Obligations.DecodedOperationReencodes := by
  intro sl w d i h
  cases sl with
  | transition => cases h; exact encodes_decodeTransition w d
  | store => exact encodes_of_decodeStore h
  | cfgMux => cases h; exact encodes_decodeCfgMux w d
  | cfgLatch => exact encodes_of_decodeCfgLatch h
  | cfgWrite => exact encodes_of_decodeCfgWrite h
  | csrMux => cases h; exact encodes_decodeCsrMux w d
  | csrWrite => exact encodes_of_decodeCsrWrite h
  | command => exact encodes_of_decodeCommand h

/-! ## The table's test, field by field -/

theorem portWord_ext_iff {w k : PortWord} :
    w = k ↔ w.getLsbD 9 = k.getLsbD 9 ∧ w.getLsbD 8 = k.getLsbD 8 ∧ offsetField w = offsetField k := by
  constructor
  · rintro rfl; exact ⟨rfl, rfl, rfl⟩
  · rintro ⟨hwe, hre, ho⟩
    rw [← packPort_fields w, ← packPort_fields k, hwe, hre, ho]

theorem stepWord_ext_iff {w k : PortWord} :
    w = k ↔ w.extractLsb' 8 2 = k.extractLsb' 8 2 ∧ w.getLsbD 7 = k.getLsbD 7 ∧ w.getLsbD 6 = k.getLsbD 6 ∧
      w.getLsbD 5 = k.getLsbD 5 ∧ w.getLsbD 4 = k.getLsbD 4 ∧ cbeField w = cbeField k := by
  constructor
  · rintro rfl; exact ⟨rfl, rfl, rfl, rfl, rfl, rfl⟩
  · rintro ⟨hp, hd, hsn, hf, hi, hc⟩
    rw [← packStep_fields w, ← packStep_fields k, hp, hd, hsn, hf, hi, hc]

/-- A masked port word matches exactly if each field, masked, matches. -/
theorem packPort_and_eq_iff (we re : Bool) (o : Offset) (m k : PortWord) :
    packPort we re o &&& m = k ↔
      (we && m.getLsbD 9) = k.getLsbD 9 ∧ (re && m.getLsbD 8) = k.getLsbD 8 ∧ o &&& offsetField m = offsetField k := by
  have hoffset (x y : PortWord) : offsetField (x &&& y) = offsetField x &&& offsetField y := BitVec.extractLsb'_and
  simp only [portWord_ext_iff, hoffset, BitVec.getLsbD_and, packPort_we, packPort_re, packPort_offset]

/-- A masked step-select word matches exactly if each field, masked, matches. -/
theorem packStep_and_eq_iff (p : Phase) (d sn f i : Bool) (c : Command) (m k : PortWord) :
    packStep p d sn f i c &&& m = k ↔
      phaseCode p &&& m.extractLsb' 8 2 = k.extractLsb' 8 2 ∧ (d && m.getLsbD 7) = k.getLsbD 7 ∧
      (sn && m.getLsbD 6) = k.getLsbD 6 ∧ (f && m.getLsbD 5) = k.getLsbD 5 ∧ (i && m.getLsbD 4) = k.getLsbD 4 ∧
      c &&& cbeField m = cbeField k := by
  have hcbe (x y : PortWord) : cbeField (x &&& y) = cbeField x &&& cbeField y := BitVec.extractLsb'_and
  simp only [stepWord_ext_iff, hcbe, BitVec.getLsbD_and, BitVec.extractLsb'_and, packStep_phase, packStep_devReady,
    packStep_irdySeen, packStep_frame, packStep_irdy, packStep_cbe]

/-- The names of the rows are distinct. -/
theorem rowOf_name {r : Row} (hr : r ∈ tableRows) : rowOf r.name = some r := by
  revert r; decide

theorem rowOf_eq_some {m : RowName} {q : Row} : rowOf m = some q ↔ q ∈ tableRows ∧ q.name = m := by
  constructor
  · intro h
    exact ⟨List.mem_of_find?_eq_some h, by simpa using List.find?_some h⟩
  · rintro ⟨hq, rfl⟩
    exact rowOf_name hq

/-- A row is selected where it fits and no row named in its `except` list is selected (R104). -/
theorem selectedBy_succ_iff {n : Nat} {r : Row} {w : PortWord} :
    r.selectedBy (n + 1) w = true ↔
      r.fits w = true ∧ ∀ m ∈ r.exceptRows, ∀ q, rowOf m = some q → ¬q.selectedBy n w = true := by
  simp [Row.selectedBy, rowOf_eq_some, ← imp_iff_not_or]

/-- The exceptions of a row are among `rows` and nest at most `n` deep. -/
def Row.nestsWithin (rows : List Row) : Nat → Row → Bool
  | 0, r => r.exceptRows.isEmpty
  | n + 1, r => r.exceptRows.all fun m => rows.any fun q => decide (rowOf m = some q) && q.nestsWithin rows n

/-- If each of `rows` has as its condition `C` that it fits and that none of its exceptions has its own condition, then
`C` is when a row is selected. -/
theorem selectedBy_iff_condition {rows : List Row} {w : PortWord} {C : RowName → Prop}
    (hC : ∀ r ∈ rows, (r.fits w = true ∧ ∀ m ∈ r.exceptRows, ¬C m) ↔ C r.name) (n : Nat) :
    ∀ r ∈ rows, r.nestsWithin rows n = true → (r.selectedBy n w = true ↔ C r.name) := by
  induction n with
  | zero =>
    intro r hr hn
    have hnone : r.exceptRows = [] := List.isEmpty_iff.mp hn
    simpa [hnone, Row.selectedBy] using hC r hr
  | succ n ih =>
    intro r hr hn
    rw [selectedBy_succ_iff, ← hC r hr]
    refine and_congr_right fun _ => forall₂_congr fun m hm => ?_
    obtain ⟨q, hq, hqn⟩ := List.any_eq_true.mp (List.all_eq_true.mp hn m hm)
    obtain ⟨hrow, hdeep⟩ := Bool.and_eq_true_iff.mp hqn
    have hrow : rowOf m = some q := of_decide_eq_true hrow
    obtain ⟨-, rfl⟩ := rowOf_eq_some.mp hrow
    rw [← ih q hq hdeep]
    simp [hrow]

/-! ## Each row's condition, in the fields of the word -/

/-- The slot that decodes a row. -/
def RowName.slot : RowName → Slot
  | .ign0000 | .ign0001 | .ior | .iow | .ign0100 | .ign0101 | .ign0110 | .ign0111
  | .ign1000 | .ign1001 | .ign1010 | .ign1011 | .ign1100 | .ign1101 | .ign1110 | .ign1111 => .command
  | .idleLatchClaim | .idleLatchIgnore | .idleHold | .decodeGo | .ioReadEnd | .ioReadWait | .ioWriteEnd
  | .ioWriteWait | .ioStall => .transition
  | .ioWriteStore => .store
  | .cfgRd00 | .cfgRd04 | .cfgRd08 | .cfgRd0C | .cfgRdOther => .cfgMux
  | .cfgLatch | .cfgHold => .cfgLatch
  | .cfgWr04 | .cfgWrOther => .cfgWrite
  | .csrRd00 | .csrRd04 | .csrRdOther => .csrMux
  | .csrWr00 | .csrWr04 | .csrWrOther => .csrWrite

theorem slot_row (i : Instr) : i.row.slot = i.slot := by cases i <;> rfl

theorem format_slot {r : Row} (hr : r ∈ tableRows) : r.name.slot.format = r.format := by
  revert r; decide

/-- When a port word selects a row (R96, R97, R104). -/
def RowName.PortCondition (we re : Bool) (o : Offset) : RowName → Prop
  | .cfgRd00 | .csrRd00 => o = 0x00#8
  | .cfgRd04 | .csrRd04 => o = 0x04#8
  | .cfgRd08 => o = 0x08#8
  | .cfgRd0C => o = 0x0C#8
  | .cfgRdOther => ¬o = 0x00#8 ∧ ¬o = 0x04#8 ∧ ¬o = 0x08#8 ∧ ¬o = 0x0C#8
  | .csrRdOther => ¬o = 0x00#8 ∧ ¬o = 0x04#8
  | .cfgLatch => re = true
  | .cfgHold => we = false ∧ re = false
  | .csrWr00 => we = true ∧ o = 0x00#8
  | .cfgWr04 | .csrWr04 => we = true ∧ o = 0x04#8
  | .cfgWrOther => we = true ∧ ¬o = 0x04#8
  | .csrWrOther => we = true ∧ ¬o = 0x00#8 ∧ ¬o = 0x04#8
  | _ => False

/-- When a step-select word selects a row (R104, R168 to R176). -/
def RowName.StepCondition (p : Phase) (d sn f i : Bool) (c : Command) : RowName → Prop
  | .idleLatchClaim => p = .idle ∧ (f && i) = true ∧ (c = ioReadCode ∨ c = ioWriteCode)
  | .idleLatchIgnore => p = .idle ∧ (f && i) = true ∧ ¬(c = ioReadCode ∨ c = ioWriteCode)
  | .idleHold => p = .idle ∧ ¬(f && i) = true
  | .decodeGo => p = .decode
  | .ioReadEnd => p = .ioRead ∧ d = true ∧ endBits sn f i = true
  | .ioReadWait => p = .ioRead ∧ d = true ∧ ¬endBits sn f i = true
  | .ioWriteStore => p = .ioWrite ∧ d = true ∧ i = true
  | .ioWriteEnd => p = .ioWrite ∧ d = true ∧ endBits sn f i = true
  | .ioWriteWait => p = .ioWrite ∧ d = true ∧ ¬endBits sn f i = true
  | .ioStall => (p = .ioRead ∨ p = .ioWrite) ∧ d = false
  | _ => False

/-! ### The table says the condition -/

/-- A mask that keeps the whole offset. -/
theorem offset_and_full (o : Offset) : o &&& 0xFF#8 = o := BitVec.and_allOnes

/-- Bits 3 to 1 of a command code tell the two I/O codes from the others (R92). -/
theorem ioCode_iff_and (c : Command) : c &&& 0b1110#4 = 0b0010#4 ↔ c = ioReadCode ∨ c = ioWriteCode := by
  revert c; decide

theorem fits_iff {r : Row} {w : PortWord} : r.fits w = true ↔ w &&& r.mask = r.matchBits := decide_eq_true_iff

/-- The masks, matches and exceptions of the port rows say their conditions. -/
theorem selectedBy_iff_portCondition (we re : Bool) (o : Offset) {r : Row} (hr : r ∈ cfgPortRows ++ csrPortRows) :
    r.selectedBy 2 (packPort we re o) = true ↔ r.name.PortCondition we re o := by
  refine selectedBy_iff_condition ?_ 2 r hr (by revert r; decide)
  cases we <;>
    simp [cfgPortRows, csrPortRows, fits_iff, packPort_and_eq_iff, offsetField, offset_and_full, RowName.PortCondition]

/-- The masks, matches and exceptions of the step-select rows say their conditions. -/
theorem selectedBy_iff_stepCondition (p : Phase) (d sn f i : Bool) (c : Command) {r : Row} (hr : r ∈ fsmStepRows) :
    r.selectedBy 2 (packStep p d sn f i c) = true ↔ r.name.StepCondition p d sn f i c := by
  refine selectedBy_iff_condition ?_ 2 r hr (by revert r; decide)
  simp only [fsmStepRows, List.forall_mem_cons, fits_iff, packStep_and_eq_iff, cbeField, RowName.StepCondition, endBits]
  cases p with
  | idle => cases f <;> cases i <;> simp [phaseCode, ioCode_iff_and]
  | decode => simp [phaseCode]
  | ioRead | ioWrite => cases d <;> simp [phaseCode, and_assoc]

/-! ### The decoder says the condition -/

theorem portCondition_of_decodeWord {sl : Slot} {we re : Bool} {o : Offset} {v : Word} {r : Instr}
    (hsl : sl.format = .cfgPort ∨ sl.format = .csrPort) (h : decodeWord sl (packPort we re o) v = .ok r) :
    r.row.PortCondition we re o := by
  cases sl
  case cfgMux =>
    cases h
    rw [decodeCfgMux_packPort]
    split_ifs with h0 h4 h8 hC
    exacts [h0, h4, h8, hC, ⟨h0, h4, h8, hC⟩]
  case cfgLatch =>
    rw [decodeWord, decodeCfgLatch_packPort] at h
    cases re <;> cases we <;> cases h
    exacts [⟨rfl, rfl⟩, rfl, rfl]
  case cfgWrite =>
    rw [decodeWord, decodeCfgWrite_packPort] at h
    split_ifs at h with hwe h4 <;> cases h
    exacts [⟨hwe, h4⟩, ⟨hwe, h4⟩]
  case csrMux =>
    cases h
    rw [decodeCsrMux_packPort]
    split_ifs with h0 h4
    exacts [h0, h4, ⟨h0, h4⟩]
  case csrWrite =>
    rw [decodeWord, decodeCsrWrite_packPort] at h
    split_ifs at h with hwe h0 h4 <;> cases h
    exacts [⟨hwe, h0⟩, ⟨hwe, h4⟩, ⟨hwe, h0, h4⟩]
  case transition | store | command => rcases hsl with h | h <;> cases h

theorem decodeWord_of_portCondition {n : RowName} {we re : Bool} {o : Offset} (v : Word)
    (h : n.PortCondition we re o) : ∃ r, decodeWord n.slot (packPort we re o) v = .ok r ∧ r.row = n := by
  cases n
  all_goals dsimp only [RowName.PortCondition, RowName.slot, decodeWord] at h ⊢
  case cfgRd00 | cfgRd04 | cfgRd08 | cfgRd0C | cfgRdOther => simp [decodeCfgMux_packPort, h, Instr.row]
  case cfgLatch | cfgHold => simp [decodeCfgLatch_packPort, h, Instr.row]
  case cfgWr04 | cfgWrOther => simp [decodeCfgWrite_packPort, h, Instr.row]
  case csrRd00 | csrRd04 | csrRdOther => simp [decodeCsrMux_packPort, h, Instr.row]
  case csrWr00 | csrWr04 | csrWrOther => simp [decodeCsrWrite_packPort, h, Instr.row]

theorem stepCondition_of_decodeWord {sl : Slot} {p : Phase} {d sn f i : Bool} {c : Command} {v : Word} {r : Instr}
    (hsl : sl.format = .fsmStep) (h : decodeWord sl (packStep p d sn f i c) v = .ok r) :
    r.row.StepCondition p d sn f i c := by
  cases sl
  case transition =>
    cases h
    cases p with
    | idle =>
      rw [decodeTransition_idle]
      split_ifs with hs hc
      exacts [⟨rfl, hs, hc⟩, ⟨rfl, hs, hc⟩, ⟨rfl, hs⟩]
    | decode => rw [decodeTransition_decode]; rfl
    | ioRead =>
      rw [decodeTransition_ioRead]
      split_ifs with hd he
      exacts [⟨rfl, hd, he⟩, ⟨rfl, hd, he⟩, ⟨.inl rfl, Bool.eq_false_iff.mpr hd⟩]
    | ioWrite =>
      rw [decodeTransition_ioWrite]
      split_ifs with hd he
      exacts [⟨rfl, hd, he⟩, ⟨rfl, hd, he⟩, ⟨.inr rfl, Bool.eq_false_iff.mpr hd⟩]
  case store =>
    rw [decodeWord, decodeStore_packStep] at h
    split_ifs at h with hs
    cases h
    exact hs
  all_goals cases hsl

theorem decodeWord_of_stepCondition {n : RowName} {p : Phase} {d sn f i : Bool} {c : Command} (v : Word)
    (h : n.StepCondition p d sn f i c) : ∃ r, decodeWord n.slot (packStep p d sn f i c) v = .ok r ∧ r.row = n := by
  cases n
  all_goals dsimp only [RowName.StepCondition, RowName.slot, decodeWord] at h ⊢
  case idleLatchClaim | idleLatchIgnore => simp [decodeTransition_idle, h, Instr.row]
  case idleHold =>
    obtain ⟨rfl, hs⟩ := h
    rw [decodeTransition_idle, if_neg hs]
    exact ⟨_, rfl, rfl⟩
  case decodeGo => simp [decodeTransition_decode, h, Instr.row]
  case ioReadEnd | ioReadWait => simp [decodeTransition_ioRead, h, Instr.row]
  case ioWriteStore => simp [decodeStore_packStep, h, Instr.row]
  case ioWriteEnd | ioWriteWait => simp [decodeTransition_ioWrite, h, Instr.row]
  case ioStall =>
    obtain ⟨rfl | rfl, rfl⟩ := h
    · simp [decodeTransition_ioRead, Instr.row]
    · simp [decodeTransition_ioWrite, Instr.row]

/-- A command row is selected exactly by its own code (R92, R94). -/
theorem selectedBy_iff_commandCode (c : Command) (a : Word) {r : Row} (hr : r ∈ busCmdRows) :
    r.selectedBy 2 (packCommand c) = true ↔ (decodeCommandCode c a).row = r.name := by
  have haddr : (decodeCommandCode c a).row = (decodeCommandCode c 0#32).row := by
    obtain ⟨k⟩ := c
    fin_cases k <;> rfl
  have htable : ∀ c, ∀ r ∈ busCmdRows,
      (r.selectedBy 2 (packCommand c) = true ↔ (decodeCommandCode c 0#32).row = r.name) := by decide
  rw [haddr, htable c r hr]

/-- Only a row's own slot decodes to an operation of the row. -/
theorem exists_slot_iff {r : Row} (hr : r ∈ tableRows) (w : PortWord) (d : Word) :
    (∃ sl i, sl.format = r.format ∧ decodeWord sl w d = .ok i ∧ i.row = r.name) ↔
      ∃ i, decodeWord r.name.slot w d = .ok i ∧ i.row = r.name := by
  constructor
  · rintro ⟨sl, i, -, hi, hrow⟩
    obtain ⟨-, hsl, -⟩ := decodedOperationReencodes sl w d i hi
    rw [← hrow, slot_row, hsl]
    exact ⟨i, hi, rfl⟩
  · rintro ⟨i, hi, hrow⟩
    exact ⟨_, i, format_slot hr, hi, hrow⟩

theorem slot_of_mem_busCmdRows {r : Row} (hr : r ∈ busCmdRows) : r.name.slot = .command := by
  revert r; decide

theorem mem_rows_of_format {r : Row} (hr : r ∈ tableRows) :
    (r.format = .busCmd ∧ r ∈ busCmdRows) ∨ (r.format = .fsmStep ∧ r ∈ fsmStepRows) ∨
      ((r.format = .cfgPort ∨ r.format = .csrPort) ∧ r ∈ cfgPortRows ++ csrPortRows) := by
  revert r; decide

/-- Settles O4: both the table and the decoder say each row's condition on the fields of the word. -/
theorem decoderAgreesWithTable : Obligations.DecoderAgreesWithTable := by
  intro w d r hr hw
  rw [exists_slot_iff hr]
  obtain ⟨hf, hmem⟩ | ⟨hf, hmem⟩ | ⟨hf, hmem⟩ := mem_rows_of_format hr
  · have hhigh : w.extractLsb' 4 6 = 0#6 := by simpa [hf, Format.presents] using hw
    rw [← packCommand_cbeField hhigh, selectedBy_iff_commandCode _ d hmem, slot_of_mem_busCmdRows hmem,
      decodeWord, decodeCommand_packCommand]
    simp
  · obtain ⟨p, dr, sn, f, i, c, rfl⟩ := exists_packStep w
    rw [selectedBy_iff_stepCondition _ _ _ _ _ _ hmem]
    constructor
    · exact decodeWord_of_stepCondition d
    · rintro ⟨i, hi, hrow⟩
      exact hrow ▸ stepCondition_of_decodeWord ((format_slot hr).trans hf) hi
  · obtain ⟨we, re, o, rfl⟩ := exists_packPort w
    rw [selectedBy_iff_portCondition _ _ _ hmem]
    constructor
    · exact decodeWord_of_portCondition d
    · rintro ⟨i, hi, hrow⟩
      exact hrow ▸ portCondition_of_decodeWord (by rwa [format_slot hr]) hi

/-! ## Which words select a row in a slot, and words placed at a slot -/

/-- Settles O1: the decoder evaluates on each of the eleven words. -/
theorem sampleWordsDecode : Obligations.SampleWordsDecode :=
  fun _ => ⟨rfl, rfl, rfl, rfl, rfl, rfl, rfl, rfl, rfl, rfl, rfl⟩

theorem high_eq_zero_iff (w : PortWord) : w.extractLsb' 4 6 = 0#6 ↔ w.toNat < 16 := by
  have hw : w.toNat < 1024 := w.isLt
  rw [← BitVec.toNat_inj, BitVec.extractLsb'_toNat, Nat.shiftRight_eq_div_pow, BitVec.toNat_ofNat]
  omega

theorem exists_decodeCommand_iff (w : PortWord) (a : Word) : (∃ i, decodeCommand w a = .ok i) ↔ w.toNat < 16 := by
  rw [← high_eq_zero_iff, decodeCommand]
  split_ifs with h <;> simp [h]

theorem exists_decodeStore_iff (w : PortWord) (v : Word) :
    (∃ i, decodeStore w v = .ok i) ↔ w &&& 0x390#10 = 0x390#10 := by
  obtain ⟨p, d, sn, f, i, c, rfl⟩ := exists_packStep w
  rw [decodeStore_packStep, packStep_and_eq_iff]
  cases p <;> simp [phaseCode, cbeField, ite_eq_iff]

theorem packPort_and_we (we re : Bool) (o : Offset) : packPort we re o &&& 0x200#10 = 0x200#10 ↔ we = true := by
  simp [packPort_and_eq_iff, offsetField]

theorem exists_decodeCfgWrite_iff (w : PortWord) (v : Word) :
    (∃ i, decodeCfgWrite w v = .ok i) ↔ w &&& 0x200#10 = 0x200#10 := by
  obtain ⟨we, re, o, rfl⟩ := exists_packPort w
  rw [decodeCfgWrite_packPort, packPort_and_we]
  split_ifs with hwe <;> simp [hwe]

theorem exists_decodeCsrWrite_iff (w : PortWord) (v : Word) :
    (∃ i, decodeCsrWrite w v = .ok i) ↔ w &&& 0x200#10 = 0x200#10 := by
  obtain ⟨we, re, o, rfl⟩ := exists_packPort w
  rw [decodeCsrWrite_packPort, packPort_and_we]
  split_ifs with hwe <;> simp [hwe]

theorem exists_decodeCfgLatch_iff (w : PortWord) : (∃ i, decodeCfgLatch w = .ok i) ↔ w &&& 0x300#10 ≠ 0x200#10 := by
  obtain ⟨we, re, o, rfl⟩ := exists_packPort w
  rw [decodeCfgLatch_packPort, ne_eq, packPort_and_eq_iff]
  cases we <;> cases re <;> simp [offsetField]

/-- Settles O5: slot by slot, when the decoder answers a row. -/
theorem slotsSelectWhenTheRulesSay : Obligations.SlotsSelectWhenTheRulesSay :=
  fun w d => ⟨⟨_, rfl⟩, ⟨_, rfl⟩, ⟨_, rfl⟩, exists_decodeCommand_iff w d, exists_decodeStore_iff w d,
    exists_decodeCfgWrite_iff w d, exists_decodeCsrWrite_iff w d, exists_decodeCfgLatch_iff w⟩

/-- An address whose low byte is an offset the engine can present has that offset (R166). -/
theorem offsetOf_of_index (idx : BitVec 4) : offsetOf (0#24 ++ (0b00#2 ++ idx ++ 0b00#2)) = 0b00#2 ++ idx ++ 0b00#2 := by
  revert idx; decide

/-- A placed Command/Status word is the one read next, where the engine can present it. -/
theorem csrWord_placeWord {we re : Bool} (idx : BitVec 4) (d : Word) (s : State) (hone : (we && re) = false) :
    let w := packPort we re (0b00#2 ++ idx ++ 0b00#2)
    (s.placeWord .csrMux w d).csrWord (s.placeWord .csrMux w d).presented = w := by
  simp only [State.placeWord, presented_present, State.csrWord, present_engine, packPort_we, packPort_re, packPort_offset,
    Engine.off, offsetOf_of_index]
  cases we with
  | false => cases re <;> rfl
  | true =>
    obtain rfl : re = false := hone
    rfl

/-- Settles O6: the fields a word is placed in are the fields the slot reads. -/
theorem placedWordIsReadNext : Obligations.PlacedWordIsReadNext := by
  refine ⟨fun sl w d s hmux hwrite hcommand => ?_, fun sl we re idx d s hsl hone => ⟨?_, ?_⟩⟩
  · cases sl with
    | transition | store => exact ⟨packStep_fields w, rfl⟩
    | cfgMux | cfgLatch | cfgWrite => exact ⟨packPort_fields w, rfl⟩
    | csrMux => exact absurd rfl hmux
    | csrWrite => exact absurd rfl hwrite
    | command => exact ⟨packCommand_cbeField ((high_eq_zero_iff w).mpr (hcommand rfl)), rfl⟩
  · rcases hsl with rfl | rfl <;> exact csrWord_placeWord idx d s hone
  · rcases hsl with rfl | rfl <;> rfl

end Sys2Proof

/-! # Proofs: the pseudo-operations

A loaded program is run as the edges of its samples (`run_load`), the parts of the state are followed edge by edge, and the
two repeated pseudo-operations are inductions over the number of edges. -/

namespace Sys2Proof.Machine

/-! ## A loaded program is the edges of its samples -/

/-- The edges of the listing with the samples `is`, one after another. -/
def State.edges (is : List Sample) (s : State) : State := is.foldl (fun t i => t.clockEdge i) s

@[simp] theorem edges_nil (s : State) : s.edges [] = s := rfl
@[simp] theorem edges_cons (i : Sample) (is : List Sample) (s : State) :
    s.edges (i :: is) = (s.clockEdge i).edges is := rfl

@[simp] theorem edges_stim (is : List Sample) (s : State) : (s.edges is).stim = s.stim := by
  induction is generalizing s with
  | nil => rfl
  | cons i is ih => rw [edges_cons, ih, clockEdge_stim]

@[simp] theorem edges_config (is : List Sample) (s : State) : (s.edges is).config = s.config := by
  induction is generalizing s with
  | nil => rfl
  | cons i is ih => rw [edges_cons, ih, clockEdge_config]

@[simp] theorem edges_cycle (is : List Sample) (s : State) : (s.edges is).cycle = s.cycle + is.length := by
  induction is generalizing s with
  | nil => rfl
  | cons i is ih => rw [edges_cons, ih, clockEdge_cycle, List.length_cons]; omega

/-- A property that each edge keeps is kept by all of them. -/
theorem edges_keep {P : State → Prop} {is : List Sample} (hP : ∀ i ∈ is, ∀ s, P s → P (s.clockEdge i)) {s : State}
    (h : P s) : P (s.edges is) := by
  induction is generalizing s with
  | nil => exact h
  | cons i is ih =>
    obtain ⟨hi, his⟩ := List.forall_mem_cons.mp hP
    exact ih his (hi s h)

theorem step_load_cons (i : Sample) (is : List Sample) (s : State) :
    step (s.load (i :: is)) = .next ((s.clockEdge i).load is) := by
  rw [load_cons, step_cons, State.load, clockEdge_stim]

/-- A step that answers `t` is followed by the remaining steps from `t`. -/
theorem run_succ (M : Host.Core) {s t : M.State} (k : Nat) (h : M.step s = .next t) : M.run (k + 1) s = M.run k t := by
  rw [Host.Core.run, h]

/-- Running as many steps as there are samples makes their edges; what was loaded behind them is still pending. -/
theorem run_load (is rest : List Sample) (s : State) :
    Host.Core.run Sys2Proof.core is.length (s.load (is ++ rest)) = .next ((s.edges is).load rest) := by
  induction is generalizing s with
  | nil => rfl
  | cons i is ih => exact (run_succ Sys2Proof.core is.length (step_load_cons i (is ++ rest) s)).trans (ih (s.clockEdge i))

@[simp] theorem load_engine (is : List Sample) (s : State) : (s.load is).engine = s.engine := rfl
@[simp] theorem load_csr (is : List Sample) (s : State) : (s.load is).csr = s.csr := rfl
@[simp] theorem load_cfg (is : List Sample) (s : State) : (s.load is).cfg = s.cfg := rfl
@[simp] theorem load_stim (is : List Sample) (s : State) : (s.load is).stim = is ++ s.stim := rfl
@[simp] theorem load_shown (is : List Sample) (s : State) : (s.load is).shown = s.shown := rfl

/-! ## One edge, by what its sample and its state leave alone -/

/-- An edge with the configuration port at rest and no acting `rst` leaves the Configuration file (R131). -/
theorem clockEdge_cfg_of_portIdle {s : State} {i : Sample} (hw : i.cfgWe = false) (hr : i.cfgRe = false)
    (hrst : s.noReset i) : (s.clockEdge i).cfg = s.cfg := by
  rw [clockEdge_cfg, hrst, if_neg Bool.false_ne_true, CfgFile.next_idle _ _ hw hr]

/-- An edge without a write-enable and without an acting `rst` leaves the Command/Status file (R174). -/
theorem clockEdge_csr_of_not_csrWe {s : State} {i : Sample} (h : s.engine.csrWe i.irdy = false) (hrst : s.noReset i) :
    (s.clockEdge i).csr = s.csr := by
  rw [clockEdge_csr, hrst, if_neg Bool.false_ne_true, State.csrNext, h, if_neg Bool.false_ne_true]

/-- So does one outside IO_WRITE. -/
theorem clockEdge_csr_of_st {s : State} {i : Sample} (h : s.engine.st ≠ .ioWrite) (hrst : s.noReset i) :
    (s.clockEdge i).csr = s.csr := clockEdge_csr_of_not_csrWe (csrWe_eq_false _ (.inl h)) hrst

theorem clockEdge_csr_of_idle {s : State} {i : Sample} (hst : s.engine.st = .idle) (hrst : s.noReset i) :
    (s.clockEdge i).csr = s.csr := clockEdge_csr_of_st (by simp [hst]) hrst

/-- An edge in IDLE without a start leaves the engine (R171). -/
theorem clockEdge_engine_of_idle {s : State} {i : Sample} (hst : s.engine.st = .idle)
    (hs : starts i.frame i.irdy = false) : (s.clockEdge i).engine = s.engine :=
  (clockEdge_engine ..).trans (Engine.next_idle _ hst hs)

/-! ## Reads and writes -/

/-- The engine in the first data cycle of a transaction (R169, R172). -/
abbrev Engine.opened (c : Command) (a : Word) (e : Engine) : Engine := ((e.latch a c).claim).goIo

theorem Engine.opened_st (c : Command) (a : Word) (e : Engine) :
    (e.opened c a).st = .ioRead ∨ (e.opened c a).st = .ioWrite := by
  dsimp only [Engine.opened, Engine.goIo]
  split
  · exact .inl rfl
  · exact .inr rfl

/-- The start edge of a claimed command and its DECODE cycle open the engine, and leave both register files. -/
theorem edges_open {s : State} (hst : s.engine.st = .idle) {c : Command} (hc : claims c = true) (a : Word)
    (f r : Bool) (c' : Command) (v : Option Word) :
    (s.edges [startSample c a, cyc f r c' v]).engine = s.engine.opened c a ∧
      (s.edges [startSample c a, cyc f r c' v]).csr = s.csr ∧
      (s.edges [startSample c a, cyc f r c' v]).cfg = s.cfg := by
  have hclaim : (s.clockEdge (startSample c a)).engine = (s.engine.latch a c).claim :=
    (clockEdge_engine ..).trans (Engine.next_claimed _ hst rfl hc)
  simp only [edges_cons, edges_nil]
  refine ⟨?_, ?_, ?_⟩
  · rw [clockEdge_engine, hclaim]
    exact Engine.next_decode _ rfl
  · rw [clockEdge_csr_of_st (by rw [hclaim]; exact Phase.noConfusion) rfl, clockEdge_csr_of_idle hst rfl]
  · rw [clockEdge_cfg_of_portIdle rfl rfl rfl, clockEdge_cfg_of_portIdle rfl rfl rfl]

/-- A shortest transaction of a claimed command, with `v` driven in its data phase (R103): `t` is the state of its first data
cycle, from which the third edge goes on with the gate open and the fourth ends the stay. -/
theorem run_transaction {s : State} (hst : s.engine.st = .idle) {c : Command} (hc : claims c = true) (a : Word)
    (v : Option Word) :
    ∃ t u : State, t.engine = s.engine.opened c a ∧ t.csr = s.csr ∧
      Host.Core.run Sys2Proof.core 3 (s.load [startSample c a, cyc true true 0b0000#4 v, cyc false true 0b0000#4 v,
        cyc false false 0b0000#4 none]) =
        .next ((t.clockEdge (cyc false true 0b0000#4 v)).load [cyc false false 0b0000#4 none]) ∧
      step ((t.clockEdge (cyc false true 0b0000#4 v)).load [cyc false false 0b0000#4 none]) = .next u ∧
      u.engine.st = .idle ∧ u.csr = (t.clockEdge (cyc false true 0b0000#4 v)).csr ∧ u.cfg = s.cfg ∧ u.stim = s.stim := by
  obtain ⟨hengine, hcsr, hcfg⟩ := edges_open hst hc a true true 0b0000#4 v
  have hwait : ((s.edges [startSample c a, cyc true true 0b0000#4 v]).clockEdge (cyc false true 0b0000#4 v)).engine =
      (s.engine.opened c a).wait true := by
    rw [clockEdge_engine, hengine]
    exact Engine.next_waits _ (Engine.opened_st ..) rfl rfl
  refine ⟨_, _, hengine, hcsr, run_load [_, _, _] [_] s, step_load_cons _ _ _, ?_, ?_, ?_, ?_⟩
  · rw [load_engine, clockEdge_engine, hwait]
    have hst' : ((s.engine.opened c a).wait true).st = .ioRead ∨ ((s.engine.opened c a).wait true).st = .ioWrite :=
      Engine.opened_st c a s.engine
    rw [Engine.next_ends _ hst' rfl rfl, Engine.finish]
  · have hno : ((s.engine.opened c a).wait true).csrWe false = false :=
      Bool.eq_false_iff.mpr fun h => Bool.false_ne_true (csrWe_iff.mp h).2.2
    rw [load_csr, clockEdge_csr_of_not_csrWe (by rw [hwait]; exact hno) rfl]
  · rw [load_cfg, clockEdge_cfg_of_portIdle rfl rfl rfl, clockEdge_cfg_of_portIdle rfl rfl rfl, hcfg]
  · simp

/-- `IOW`: the third edge stores (R103, R174). -/
theorem run_iow {s : State} (hst : s.engine.st = .idle) (a d : Word) :
    ∃ t u, Host.Core.run Sys2Proof.core 3 (s.load (PseudoOp.iow a d).expand) = .next t ∧
      t.csr = s.csr.write (offsetOf a) d ∧ step t = .next u ∧ u.engine.st = .idle ∧ u.csr = t.csr ∧ u.cfg = s.cfg ∧
      u.stim = s.stim := by
  obtain ⟨t, u, hengine, hcsr, hrun, hstep, hend⟩ := run_transaction hst (c := ioWriteCode) (by decide) a (some d)
  refine ⟨_, u, hrun, ?_, hstep, hend⟩
  have hstore : (t.clockEdge (cyc false true 0b0000#4 (some d))).csr = t.csrNext (cyc false true 0b0000#4 (some d)) :=
    clockEdge_csr ..
  rw [load_csr, hstore, State.csrNext, hengine, hcsr]
  rfl

/-- `IOR`: the third cycle shows the addressed word (R103, R163, R181). -/
theorem run_ior {s : State} (hst : s.engine.st = .idle) (a : Word) :
    ∃ t u, Host.Core.run Sys2Proof.core 3 (s.load (PseudoOp.ior a).expand) = .next t ∧
      t.shown.adOut = s.csr.read (offsetOf a) ∧ t.shown.trdy = true ∧ step t = .next u ∧ u.engine.st = .idle ∧
      u.csr = s.csr ∧ u.cfg = s.cfg ∧ u.stim = s.stim := by
  obtain ⟨t, u, hengine, hcsr, hrun, hstep, hidle, hkeep, hrest⟩ :=
    run_transaction hst (c := ioReadCode) (by decide) a none
  refine ⟨_, u, hrun, ?_, ?_, hstep, hidle, ?_, hrest⟩
  · rw [load_shown, clockEdge_adOut, State.adOut, hengine, hcsr]
    rfl
  · have htrdy : (t.clockEdge (cyc false true 0b0000#4 none)).shown.trdy = t.engine.trdy := by rw [clockEdge_shown]; rfl
    rw [load_shown, htrdy, hengine]
    rfl
  · rw [hkeep, clockEdge_csr_of_st (by rw [hengine]; exact Phase.noConfusion) rfl, hcsr]

/-- `XCMD` with a code that is not claimed changes nothing but the latches (R103, R212). -/
theorem run_xcmd {s : State} (hst : s.engine.st = .idle) {c : Command} (hc : claims c = false) (a : Word) :
    ∃ t, Host.Core.run Sys2Proof.core 2 (s.load (PseudoOp.xcmd c a).expand) = .next t ∧
      t.engine = { s.engine with addrLatch := a, cmdLatch := c } ∧
      t.csr = s.csr ∧ t.cfg = s.cfg ∧ t.config = s.config ∧ t.stim = s.stim := by
  have hlatch : (s.clockEdge (startSample c a)).engine = s.engine.latch a c :=
    (clockEdge_engine ..).trans (Engine.next_ignored _ hst rfl hc)
  have hidle : (s.clockEdge (startSample c a)).engine.st = .idle := by rw [hlatch]; exact hst
  refine ⟨(s.clockEdge (startSample c a)).clockEdge Sample.quiet, run_load [_, _] [] s, ?_, ?_, ?_, by simp, by simp⟩
  · rw [clockEdge_engine_of_idle hidle rfl, hlatch, Engine.latch]
  · rw [clockEdge_csr_of_idle hidle rfl, clockEdge_csr_of_idle hst rfl]
  · rw [clockEdge_cfg_of_portIdle rfl rfl rfl, clockEdge_cfg_of_portIdle rfl rfl rfl]

/-! ## Repeated cycles -/

/-- `t` holds the block state and the parameters of `s`. -/
def State.SameBlock (s t : State) : Prop :=
  t.engine = s.engine ∧ t.csr = s.csr ∧ t.cfg = s.cfg ∧ t.config = s.config

/-- From IDLE, cycles without a start, with the port at rest and without an acting `rst` change nothing of the block. -/
theorem sameBlock_edges_replicate {s : State} {i : Sample} (hst : s.engine.st = .idle)
    (hs : starts i.frame i.irdy = false) (hw : i.cfgWe = false) (hr : i.cfgRe = false) (hrst : s.noReset i) (k : Nat) :
    s.SameBlock (s.edges (List.replicate k i)) := by
  refine edges_keep (P := s.SameBlock) (fun j hj t ht => ?_) ⟨rfl, rfl, rfl, rfl⟩
  obtain rfl := List.eq_of_mem_replicate hj
  obtain ⟨hengine, hcsr, hcfg, hconfig⟩ := ht
  have hst' : t.engine.st = .idle := by rw [hengine, hst]
  have hrst' : t.noReset j := by rw [State.noReset, hconfig]; exact hrst
  exact ⟨(clockEdge_engine_of_idle hst' hs).trans hengine, (clockEdge_csr_of_idle hst' hrst').trans hcsr,
    (clockEdge_cfg_of_portIdle hw hr hrst').trans hcfg, (clockEdge_config ..).trans hconfig⟩

theorem run_load_replicate (k : Nat) (i : Sample) (s : State) :
    Host.Core.run Sys2Proof.core k (s.load (List.replicate k i)) = .next (s.edges (List.replicate k i)) := by
  have hrun := run_load (List.replicate k i) [] s
  rw [List.append_nil, List.length_replicate] at hrun
  exact hrun

/-- `NOP k` changes nothing (R103, R171). -/
theorem run_nop {s : State} (hst : s.engine.st = .idle) (k : Nat) :
    ∃ t, Host.Core.run Sys2Proof.core k (s.load (PseudoOp.nop k).expand) = .next t ∧
      t.engine = s.engine ∧ t.csr = s.csr ∧ t.cfg = s.cfg ∧ t.config = s.config ∧ t.stim = s.stim ∧
      t.cycle = s.cycle + k := by
  obtain ⟨hengine, hcsr, hcfg, hconfig⟩ := sameBlock_edges_replicate (i := Sample.quiet) hst rfl rfl rfl rfl k
  exact ⟨_, run_load_replicate k _ s, hengine, hcsr, hcfg, hconfig, by simp, by simp⟩

/-- The cycle of `RST` (R103). -/
abbrev rstSample : Sample := { Sample.quiet with rst := true }

/-- From IDLE the cycles of `RST` leave the engine (R179, R263). -/
theorem edges_rst_engine {s : State} (hst : s.engine.st = .idle) (k : Nat) :
    (s.edges (List.replicate k rstSample)).engine = s.engine := by
  refine edges_keep (P := fun t => t.engine = s.engine) (fun j hj t ht => ?_) rfl
  obtain rfl := List.eq_of_mem_replicate hj
  rw [clockEdge_engine_of_idle (by rw [ht, hst]) rfl, ht]

/-- `t` holds the parameters of `s` and both register files as `rst` leaves them (R263). -/
def State.Reloaded (s t : State) : Prop :=
  t.config = s.config ∧ t.csr = CsrFile.reset s.config ∧ t.cfg = s.cfg.applyReset

/-- Where `RST_REGS` is true, a cycle of `RST` reloads both register files, reloaded before or not (R263). -/
theorem reloaded_clockEdge_rst {s t : State} (hregs : s.config.rstRegs = true) (hconfig : t.config = s.config)
    (hcfg : t.cfg.applyReset = s.cfg.applyReset) : s.Reloaded (t.clockEdge rstSample) := by
  refine ⟨(clockEdge_config ..).trans hconfig, ?_, ?_⟩
  · rw [clockEdge_csr, hconfig, hregs]
    rfl
  · rw [clockEdge_cfg, hconfig, hregs, CfgFile.next_idle _ _ rfl rfl, hcfg]
    rfl

theorem reloaded_edges_rst {s : State} (hregs : s.config.rstRegs = true) (k : Nat) :
    s.Reloaded (s.edges (List.replicate (k + 1) rstSample)) := by
  rw [List.replicate_succ, edges_cons]
  refine edges_keep (P := s.Reloaded) (fun j hj t ht => ?_) (reloaded_clockEdge_rst hregs rfl rfl)
  obtain rfl := List.eq_of_mem_replicate hj
  obtain ⟨hconfig, -, hcfg⟩ := ht
  exact reloaded_clockEdge_rst hregs hconfig (by rw [hcfg]; rfl)

/-- `RST k` reloads both register files if `RST_REGS` and at least one edge has it, and changes nothing else (R103, R263). -/
theorem run_rst {s : State} (hst : s.engine.st = .idle) (k : Nat) :
    ∃ t, Host.Core.run Sys2Proof.core k (s.load (PseudoOp.rst k).expand) = .next t ∧
      t.engine = s.engine ∧ t.config = s.config ∧ t.stim = s.stim ∧ t.cycle = s.cycle + k ∧
      (0 < k → s.config.rstRegs = true → t.csr = { cmd := s.config.csrResetCmd, stat := s.config.csrResetStat } ∧
        t.cfg = { s.cfg with command := 0x0000#16, dout := 0x00000000#32 }) ∧
      (k = 0 ∨ s.config.rstRegs = false → t.csr = s.csr ∧ t.cfg = s.cfg) := by
  refine ⟨_, run_load_replicate k rstSample s, edges_rst_engine hst k, by simp, by simp, by simp, ?_, ?_⟩
  · intro hk hregs
    obtain ⟨j, rfl⟩ := Nat.exists_eq_succ_of_ne_zero hk.ne'
    exact (reloaded_edges_rst hregs j).2
  · rintro (rfl | hregs)
    · exact ⟨rfl, rfl⟩
    · obtain ⟨-, hcsr, hcfg, -⟩ := sameBlock_edges_replicate (i := rstSample) hst rfl rfl rfl hregs k
      exact ⟨hcsr, hcfg⟩

/-! ## The configuration port -/

/-- `CFGRD` leaves the read value on the latch (R103, R126). -/
theorem step_cfgrd {s : State} (hst : s.engine.st = .idle) (o : Offset) :
    ∃ t, step (s.load (PseudoOp.cfgrd o).expand) = .next t ∧ t.cfg = { s.cfg with dout := s.cfg.read o } ∧
      t.engine = s.engine ∧ t.csr = s.csr ∧ t.stim = s.stim := by
  refine ⟨_, step_load_cons _ [] s, ?_, clockEdge_engine_of_idle hst rfl, clockEdge_csr_of_idle hst rfl,
    clockEdge_stim ..⟩
  rw [load_cfg, clockEdge_cfg, CfgFile.next_eq_latch_write]
  rfl

/-- `CFGWR` writes (R103, R127, R128). -/
theorem step_cfgwr {s : State} (hst : s.engine.st = .idle) (o : Offset) (d : Word) :
    ∃ t, step (s.load (PseudoOp.cfgwr o d).expand) = .next t ∧ t.cfg = s.cfg.write o d ∧ t.engine = s.engine ∧
      t.csr = s.csr ∧ t.stim = s.stim := by
  refine ⟨_, step_load_cons _ [] s, ?_, clockEdge_engine_of_idle hst rfl, clockEdge_csr_of_idle hst rfl,
    clockEdge_stim ..⟩
  rw [load_cfg, clockEdge_cfg, CfgFile.next_eq_latch_write]
  rfl

/-- Settles O52: one pseudo-operation after another. -/
theorem pseudoOperationsGiveTheirResults : Obligations.PseudoOperationsGiveTheirResults := by
  intro s a d o hst
  refine ⟨run_iow hst a d, run_ior hst a, fun c hr hw => run_xcmd hst ?_ a, run_nop hst, step_cfgrd hst o,
    step_cfgwr hst o d, run_rst hst⟩
  simp [claims, hr, hw]

end Sys2Proof.Machine

/-! # Proofs: the Configuration file and the reset line

What the fixed fields make of the four mapped words is said once (`CfgFile.words_of_fixedHold`), and so is the file after an
edge at which `rst` does not act (`step_cfg`); each statement on the port then reads off its part. -/

namespace Sys2Proof.Machine

/-! ## The words of the fixed fields -/

/-- With the fixed fields of R43 item 7 only the command field and the latch are free. -/
theorem CfgFile.exists_of_fixedHold {f : CfgFile} (h : f.fixedHold) :
    ∃ c d, f = { CfgFile.reset with command := c, dout := d } :=
  ⟨f.command, f.dout, congrArg (fun g : CfgFile => { g with command := f.command, dout := f.dout }) h⟩

/-- The four mapped words (R121 to R124). -/
theorem CfgFile.words_of_fixedHold {f : CfgFile} (h : f.fixedHold) :
    f.idWord = 0x56781234#32 ∧ f.commandWord = 0x0200#16 ++ f.command ∧ f.classWord = 0x00000001#32 ∧
      f.miscWord = 0x00000000#32 := by
  obtain ⟨hid, hclass, hmisc⟩ : CfgFile.reset.idWord = 0x56781234#32 ∧ CfgFile.reset.classWord = 0x00000001#32 ∧
      CfgFile.reset.miscWord = 0x00000000#32 := by decide
  obtain ⟨c, d, rfl⟩ := CfgFile.exists_of_fixedHold h
  exact ⟨hid, rfl, hclass, hmisc⟩

theorem CfgFile.fixedHold_write {f : CfgFile} (h : f.fixedHold) (o : Offset) (v : Word) : (f.write o v).fixedHold :=
  (CfgFile.write_applyReset f o v).trans h

theorem fixedHold_clockEdge {s : State} (h : s.cfg.fixedHold) (i : Sample) : (s.clockEdge i).cfg.fixedHold :=
  (advance_clockEdge i s).fixed.trans h

/-! ## The read mux -/

/-- A read-mux row shows the read value and changes nothing else (R120). -/
theorem next_driveCfgRdata_of_read {s : State} {o : Offset} {v : Word} (h : s.cfg.read o = v) :
    (.next (s.driveCfgRdata o) : Host.Outcome State Fault Refusal) =
      .next { s with shown := { s.shown with cfgRdata := v } } := by
  rw [State.driveCfgRdata, h]

/-- The low byte of a port word alone chooses the row of the read mux: the row is the one of any word packed with that
offset (R97). -/
theorem decodeWord_cfgMux_of_offset {w : PortWord} {o : Offset} {row : Bool → Bool → Instr} (d : Word)
    (hrow : ∀ we re, decodeCfgMux (packPort we re o) = row we re) (hw : w.extractLsb' 0 8 = o) :
    ∃ we re, decodeWord .cfgMux w d = .ok (row we re) := by
  subst hw
  have hmux := hrow (w.getLsbD 9) (w.getLsbD 8)
  rw [← offsetField, packPort_fields] at hmux
  exact ⟨_, _, congrArg Except.ok hmux⟩

/-- A cycle shows the read value of the state it begins in, whatever its edge writes (R120, R127). -/
theorem clockEdge_cfgRdata (s : State) (i : Sample) : (s.clockEdge i).shown.cfgRdata = s.cfg.read i.cfgAddr := by
  rw [clockEdge_shown]; rfl

/-- Settles O17: the fixed fields give the four words, and both a write and an edge keep those fields. -/
theorem cfgMappedReads : Obligations.CfgMappedReads := by
  intro we re s h
  obtain ⟨hid, hcommand, hclass, hmisc⟩ := CfgFile.words_of_fixedHold h
  refine ⟨next_driveCfgRdata_of_read hid, next_driveCfgRdata_of_read hcommand, next_driveCfgRdata_of_read hclass,
    next_driveCfgRdata_of_read hmisc, fun o v => ?_, fun w d => ?_, fun haddr => ?_⟩
  · obtain ⟨hid', hcommand', hclass', hmisc'⟩ := CfgFile.words_of_fixedHold (CfgFile.fixedHold_write h o v)
    exact ⟨hid', hclass', hmisc', hcommand'⟩
  · refine ⟨?_, ?_, ?_, ?_⟩
    all_goals exact decodeWord_cfgMux_of_offset d fun we re => decodeCfgMux_packPort we re _
  · obtain ⟨-, hafter, -, -⟩ := CfgFile.words_of_fixedHold (fixedHold_clockEdge h s.presented)
    refine ⟨_, step_eq_clockEdge s, ?_, hafter⟩
    rw [clockEdge_cfgRdata, haddr]
    exact hcommand

/-- Settles O18: an offset that is none of the four is unmapped. -/
theorem cfgUnmappedReadsAreSentinel : Obligations.CfgUnmappedReadsAreSentinel := by
  intro we re o s h00 h04 h08 h0C
  have hunmapped : isCfgMapped o = false := by simp [isCfgMapped, h00, h04, h08, h0C]
  exact next_driveCfgRdata_of_read (CfgFile.read_unmapped s.cfg o hunmapped)

/-! ## The latch and the write path -/

/-- Where `rst` does not act, an edge leaves the Configuration file as its own share says (R126 to R130). -/
theorem step_cfg {s : State} (h : s.noReset s.presented) :
    ∃ t, step s = .next t ∧ t.cfg = s.cfg.next s.presented := by
  refine ⟨_, step_eq_clockEdge s, ?_⟩
  rw [clockEdge_cfg, h, if_neg Bool.false_ne_true]

/-- A read of any offset but 0x04 does not see the writable field. -/
theorem CfgFile.read_write_other (f : CfgFile) {p : Offset} (o : Offset) (v : Word) (hp : p ≠ 0x04#8) :
    (f.write o v).read p = f.read p := by
  by_cases ho : o = 0x04#8
  · subst ho
    simp only [CfgFile.write_command, CfgFile.read, hp, if_false]
    rfl
  · rw [CfgFile.write_other f o v ho]

/-- An edge with `cfg_we` at 0x04 puts bits 15 to 0 of the data into the command field (R127). -/
theorem CfgFile.next_of_write_command {i : Sample} (f : CfgFile) (hwe : i.cfgWe = true) (ha : i.cfgAddr = 0x04#8) :
    f.next i = { f with command := commandOperand i.cfgWdata, dout := (f.next i).dout } := by
  simp [CfgFile.next, hwe, ha]

/-- An edge with `cfg_we` at any other offset changes the latch at most (R128). -/
theorem CfgFile.next_of_write_other {i : Sample} (f : CfgFile) (ha : i.cfgAddr ≠ 0x04#8) :
    f.next i = { f with dout := (f.next i).dout } := by
  simp [CfgFile.next, ha]

/-- Settles O19: the latch's part of the file's share of the edge. -/
theorem cfgLatchLoads : Obligations.CfgLatchLoads := by
  refine ⟨fun _ _ _ => rfl, fun s h => ?_⟩
  obtain ⟨t, hstep, hcfg⟩ := step_cfg h
  exact ⟨t, hstep, by rw [hcfg]; rfl⟩

/-- Settles O20: what a write to 0x04 puts into the command field, at the row and at an edge, and which reads see it. -/
theorem cfgWriteCommandField : Obligations.CfgWriteCommandField := by
  refine ⟨fun re v s => ⟨_, rfl, rfl, rfl, fun h => ?_, fun _ => CfgFile.read_write_other s.cfg _ v⟩,
    fun s h hwe ha => ?_⟩
  · obtain ⟨-, hcommand, -, -⟩ := CfgFile.words_of_fixedHold (CfgFile.fixedHold_write h 0x04#8 v)
    exact hcommand
  · obtain ⟨t, hstep, hcfg⟩ := step_cfg h
    exact ⟨t, hstep, by rw [hcfg]; exact CfgFile.next_of_write_command s.cfg hwe ha⟩

/-- Settles O21: a write to any other offset is dropped, at the row and at an edge. -/
theorem cfgOtherWritesAreDropped : Obligations.CfgOtherWritesAreDropped := by
  refine ⟨fun re o v s ho => ?_, fun s h _ ha => ?_⟩
  · have hwrite : s.writeCfg o v = s := by rw [State.writeCfg, CfgFile.write_other s.cfg o v ho]
    exact congrArg Host.Outcome.next hwrite
  · obtain ⟨t, hstep, hcfg⟩ := step_cfg h
    exact ⟨t, hstep, by rw [hcfg]; exact CfgFile.next_of_write_other s.cfg ha⟩

/-- Settles O22: the file's share of the edge has one part for each enable, and each part reads `S_n`. -/
theorem cfgEnablesActIndependently : Obligations.CfgEnablesActIndependently := by
  refine ⟨fun _ _ => rfl, fun s h => ?_⟩
  obtain ⟨t, hstep, hcfg⟩ := step_cfg h
  refine ⟨t, hstep, ?_⟩
  simp only [hcfg, CfgFile.next, commandOperand, Bool.and_eq_true, decide_eq_true_eq]

/-! ## The reset line -/

/-- No share of an edge reads `rst`; where `RST_REGS` is false, neither does anything else (R263, R264). -/
theorem clockEdge_withRst {s : State} (h : s.config.rstRegs = false) (i : Sample) (b : Bool) :
    s.clockEdge { i with rst := b } = s.clockEdge i := by
  have hkeeps (t : State) (ht : t.config = s.config) (j : Sample) : t.applyRst j = t :=
    applyRst_noReset t j (by rw [ht, h, Bool.and_false])
  refine (hkeeps _ ?_ _).trans (hkeeps _ ?_ i).symm
  all_goals rfl

/-- Settles O41: `rst` overrides both files' shares of the edge or is not seen at all. -/
theorem rstReloadsTheRegisterFiles : Obligations.RstReloadsTheRegisterFiles := by
  refine ⟨fun s i is hrst hregs => ?_, fun s i is b hregs => ?_⟩
  · have hcsr : (s.clockEdge i).csr = CsrFile.reset s.config := by simp [hrst, hregs]
    have hcfg : (s.clockEdge i).cfg = (s.cfg.next i).applyReset := by simp [hrst, hregs]
    exact ⟨_, step_cons s i is, congrArg CsrFile.cmd hcsr, congrArg CsrFile.stat hcsr, hcfg, clockEdge_engine s i⟩
  · rw [step_cons, step_cons, clockEdge_withRst hregs i b]

end Sys2Proof.Machine

/-! # Proofs: the Command/Status file

A row of the port is one read or one write of the file, and an edge at which `rst` does not act is one write of it where
`csr_we` is asserted (`clockEdge_csr_of_csrWe`) and none otherwise (`clockEdge_csr_of_not_csrWe`). What remains of each
statement is which offsets are mapped. -/

namespace Sys2Proof.Machine

/-! ## The offsets -/

theorem isCsrMapped_eq_false {o : Offset} (h0 : o ≠ 0x00#8) (h4 : o ≠ 0x04#8) : isCsrMapped o = false := by
  simp [isCsrMapped, h0, h4]

theorem offsetOf_eq_of_index {a : Word} {idx : BitVec 4} (h : a.extractLsb' 2 4 = idx) :
    offsetOf a = 0b00#2 ++ idx ++ 0b00#2 := by
  rw [offsetOf, h]

/-- Of the sixteen offsets the engine can present, only those of the indices 0 and 1 are mapped (R61, R96). -/
theorem isCsrMapped_offsetOf_eq_false {a : Word} (h0 : a.extractLsb' 2 4 ≠ 0b0000#4) (h1 : a.extractLsb' 2 4 ≠ 0b0001#4) :
    isCsrMapped (offsetOf a) = false := by
  have hindex : ∀ idx : BitVec 4, idx ≠ 0b0000#4 → idx ≠ 0b0001#4 → isCsrMapped (0b00#2 ++ idx ++ 0b00#2) = false := by
    decide
  exact hindex _ h0 h1

/-! ## The rows -/

/-- A read-mux row shows the read value and changes nothing else (R140). -/
theorem next_driveCsrRdata_of_read {s : State} {o : Offset} {v : Word} (h : s.csr.read o = v) :
    (.next (s.driveCsrRdata o) : Host.Outcome State Fault Refusal) =
      .next { s with shown := { s.shown with csrRdata := v } } := by
  rw [State.driveCsrRdata, h]

/-- A write row leaves the file as the write leaves it and changes nothing else (R144 to R146). -/
theorem next_writeCsr_of_write {s : State} {o : Offset} {v : Word} {f : CsrFile} (h : s.csr.write o v = f) :
    (.next (s.writeCsr o v) : Host.Outcome State Fault Refusal) = .next { s with csr := f } := by
  rw [State.writeCsr, h]

/-! ## The edge -/

/-- A store writes `ad_in` at the engine's offset, where `rst` does not override it (R144, R145, R148). -/
theorem clockEdge_csr_of_csrWe {s : State} {i : Sample} (h : s.engine.csrWe i.irdy = true) (hrst : s.noReset i) :
    (s.clockEdge i).csr = s.csr.write s.engine.off i.adIn := by
  rw [clockEdge_csr, hrst, if_neg Bool.false_ne_true, State.csrNext, if_pos h]

/-- Settles O23: the row drives the stored word, and only a store replaces that word. -/
theorem csrMappedReads : Obligations.CsrMappedReads := by
  refine ⟨fun we re s => ⟨?_, ?_⟩, fun c => ⟨rfl, rfl⟩, fun f v => ⟨?_, ?_⟩, fun a => ⟨?_, ?_⟩, fun s hrst hwe => ?_⟩
  · exact next_driveCsrRdata_of_read (CsrFile.read_cmd s.csr)
  · exact next_driveCsrRdata_of_read (CsrFile.read_stat s.csr)
  · exact CsrFile.read_write_same f _ v rfl
  · exact CsrFile.read_write_same f _ v rfl
  · exact offsetOf_eq_of_index
  · exact offsetOf_eq_of_index
  · exact ⟨_, step_eq_clockEdge s, clockEdge_csr_of_not_csrWe hwe hrst⟩

/-- Settles O24: an offset that is neither of the two is unmapped, and so is that of any index from 2 on. -/
theorem csrUnmappedReadsAreSentinel : Obligations.CsrUnmappedReadsAreSentinel := by
  refine ⟨fun we re o s h0 h4 => ?_, fun a f h0 h1 => ?_⟩
  · exact next_driveCsrRdata_of_read (s.csr.read_unmapped o (isCsrMapped_eq_false h0 h4))
  · exact f.read_unmapped (offsetOf a) (isCsrMapped_offsetOf_eq_false h0 h1)

/-- Settles O25: the row and the store of an edge are the same write of the file. -/
theorem csrMappedWrites : Obligations.CsrMappedWrites := by
  refine ⟨fun re v s => ⟨?_, ?_⟩, fun s hrst hwe => ?_⟩
  · exact next_writeCsr_of_write (s.csr.write_cmd v)
  · exact next_writeCsr_of_write (s.csr.write_stat v)
  · have hcsr := clockEdge_csr_of_csrWe hwe hrst
    refine ⟨_, step_eq_clockEdge s, fun hoff => ?_, fun hoff => ?_⟩
    · rw [hcsr, hoff, CsrFile.write_cmd]
    · rw [hcsr, hoff, CsrFile.write_stat]

/-- Settles O26: a write of the file at an offset that is neither of the two is dropped. -/
theorem csrOtherWritesAreDropped : Obligations.CsrOtherWritesAreDropped := by
  intro re o v s h0 h4
  exact next_writeCsr_of_write (s.csr.write_unmapped o v (isCsrMapped_eq_false h0 h4))

end Sys2Proof.Machine

/-! # Proofs: the engine, step by step

An FSM_STEP row in its state is its move (`next_moveEngine_of_move`); the outputs are said once for each state of the engine;
a data phase that nothing ends is followed edge by edge, from the start edge and the DECODE cycle that open it
(`busCommand_of_staysOpen`). -/

namespace Sys2Proof.Machine

/-! ## Rows in their state -/

/-- A guarded rule whose guard holds makes its move and changes nothing outside the engine. -/
theorem next_moveEngine_of_move {g : Bool} {m : Engine → Engine} {s : State} {e : Engine} (hg : g = true)
    (hm : m s.engine = e) :
    (.next (s.moveEngine g m) : Host.Outcome State Fault Refusal) = .next { s with engine := e } := by
  rw [hg, moveEngine_true, hm]

/-- The guard of an IO row holds in its state with the gate open, where its condition on the stay holds. -/
theorem ioGuard_eq_true {e : Engine} {p : Phase} {b : Bool} (hst : e.st = p) (hd : e.devReady = true) (hb : b = true) :
    (decide (e.st = p) && e.devReady && b) = true := by
  simp [hst, hd, hb]

theorem endsStay_eq_false {seen frame irdy : Bool} (h : ¬(seen = true ∧ frame = false ∧ irdy = false)) :
    endsStay seen frame irdy = false :=
  Bool.eq_false_iff.mpr fun he => h (endsStay_iff.mp he)

/-- A write at the offset of an address goes to the word that its index selects, if that is one of the two (R61, R96). -/
theorem CsrFile.write_offsetOf (f : CsrFile) (a v : Word) :
    f.write (offsetOf a) v =
      if a.extractLsb' 2 4 = 0b0000#4 then { cmd := v, stat := f.stat }
      else if a.extractLsb' 2 4 = 0b0001#4 then { cmd := f.cmd, stat := v }
      else f := by
  split
  · next h0 => rw [offsetOf_eq_of_index h0]; exact f.write_cmd v
  · next h0 =>
    split
    · next h1 => rw [offsetOf_eq_of_index h1]; exact f.write_stat v
    · next h1 => exact f.write_unmapped _ v (isCsrMapped_offsetOf_eq_false h0 h1)

/-- Settles O27: the guard holds in IDLE, and the row's last bit chooses between the two I/O codes. -/
theorem idleStartIsClaimed : Obligations.IdleStartIsClaimed := by
  intro d sn wr ad s hst
  refine next_moveEngine_of_move (decide_eq_true hst) ?_
  cases wr <;> rfl

/-- Settles O30: DECODE has no condition but the state. -/
theorem decodeGoes : Obligations.DecodeGoes :=
  fun _ _ _ _ _ _ hst => next_moveEngine_of_move (decide_eq_true hst) rfl

section IoRows

variable {s : State} {p : Phase} (hst : s.engine.st = p) (hd : s.engine.devReady = true)
include hst hd

/-- An end row returns to IDLE with the flags cleared, where initiator-ready was seen before (R173, R175). -/
theorem next_moveEngine_finish (hseen : s.engine.irdySeen = true) :
    (.next (s.moveEngine (s.engine.st = p && s.engine.devReady && endsStay s.engine.irdySeen false false) Engine.finish) :
      Host.Outcome State Fault Refusal) =
      .next { s with engine := { s.engine with st := .idle, devReady := false, irdySeen := false } } :=
  next_moveEngine_of_move (ioGuard_eq_true hst hd (endsStay_iff.mpr ⟨hseen, rfl, rfl⟩)) rfl

/-- A wait row remembers initiator-ready at any edge that is no end edge (R173, R175). -/
theorem next_moveEngine_wait {frame irdy : Bool} (h : ¬(s.engine.irdySeen = true ∧ frame = false ∧ irdy = false)) :
    (.next (s.moveEngine (s.engine.st = p && s.engine.devReady && !endsStay s.engine.irdySeen frame irdy)
      (Engine.wait irdy)) : Host.Outcome State Fault Refusal) =
      .next { s with engine := { s.engine with irdySeen := s.engine.irdySeen || irdy } } :=
  next_moveEngine_of_move (ioGuard_eq_true hst hd (by rw [endsStay_eq_false h]; rfl)) rfl

end IoRows

/-- Settles O31: the end row's guard asks for `irdy_seen`, the wait row's for an edge that is no end edge. -/
theorem ioReadWaitsAndEnds : Obligations.IoReadWaitsAndEnds :=
  fun _ hst hd => ⟨fun _ => next_moveEngine_finish hst hd, fun _ _ _ _ => next_moveEngine_wait hst hd⟩

/-- Settles O33: as in IO_READ. -/
theorem ioWriteWaitsAndEnds : Obligations.IoWriteWaitsAndEnds :=
  fun _ hst hd => ⟨fun _ => next_moveEngine_finish hst hd, fun _ _ _ _ => next_moveEngine_wait hst hd⟩

/-- Settles O32: the engine asserts the write-enable, and the row is one write at the offset of the latched address. -/
theorem ioWriteStores : Obligations.IoWriteStores := by
  intro sn f c v s hst hd
  have hexec : exec (.ioWriteStore sn f c v) s = .next (s.writeCsr s.engine.off v) :=
    congrArg Host.Outcome.next (if_pos (csrWe_iff.mpr ⟨hst, hd, rfl⟩))
  exact ⟨_, hexec, rfl, CsrFile.write_offsetOf s.csr s.engine.addrLatch v⟩

/-! ## Edges that keep the engine -/

/-- Settles O29: an edge in IDLE without a start. -/
theorem idleHolds : Obligations.IdleHolds :=
  ⟨fun _ _ _ _ _ _ => rfl, fun s hst hs => ⟨_, step_eq_clockEdge s, clockEdge_engine_of_idle hst hs⟩⟩

/-- Settles O34: with the gate closed an edge neither moves the engine nor stores. -/
theorem ioStalls : Obligations.IoStalls := by
  refine ⟨fun _ _ _ _ _ _ => rfl, fun s hst hd => ⟨_, step_eq_clockEdge s, ?_, fun hrst => ?_⟩⟩
  · exact (clockEdge_engine ..).trans (Engine.next_stalls _ hst hd)
  · exact clockEdge_csr_of_not_csrWe (csrWe_eq_false _ (.inr hd)) hrst

/-! ## Outputs -/

/-- The outputs of IDLE (R161). -/
theorem Engine.outputs_of_idle {e : Engine} (h : e.st = .idle) :
    e.devsel = false ∧ e.trdy = false ∧ e.adOe = false ∧ e.csrRe = false := by
  simp [Engine.devsel, Engine.trdy, Engine.adOe, Engine.csrRe, h]

/-- The outputs of DECODE (R162). -/
theorem Engine.outputs_of_decode {e : Engine} (h : e.st = .decode) :
    e.devsel = true ∧ e.trdy = false ∧ e.adOe = false ∧ e.csrRe = false := by
  simp [Engine.devsel, Engine.trdy, Engine.adOe, Engine.csrRe, h]

/-- The outputs of IO_READ (R163). -/
theorem Engine.outputs_of_ioRead {e : Engine} (h : e.st = .ioRead) :
    e.devsel = true ∧ e.trdy = e.devReady ∧ e.adOe = e.devReady ∧ e.csrRe = e.devReady := by
  simp [Engine.devsel, Engine.trdy, Engine.adOe, Engine.csrRe, h]

/-- The outputs of IO_WRITE (R164). -/
theorem Engine.outputs_of_ioWrite {e : Engine} (h : e.st = .ioWrite) :
    e.devsel = true ∧ e.trdy = e.devReady ∧ e.adOe = false ∧ e.csrRe = false := by
  simp [Engine.devsel, Engine.trdy, Engine.adOe, Engine.csrRe, h]

/-- What the target does not drive is zero (R181, decision D11). -/
theorem adOut_of_not_adOe {s : State} (h : s.engine.adOe = false) : s.adOut = 0x00000000#32 := by
  simp [State.adOut, h]

/-- A cycle shows the outputs of the state it begins in (R38, decision D1). -/
theorem clockEdge_outputs (s : State) (i : Sample) :
    (s.clockEdge i).shown.devsel = s.engine.devsel ∧ (s.clockEdge i).shown.trdy = s.engine.trdy ∧
      (s.clockEdge i).shown.adOe = s.engine.adOe ∧ (s.clockEdge i).shown.csrRe = s.engine.csrRe := by
  rw [clockEdge_shown]; exact ⟨rfl, rfl, rfl, rfl⟩

/-- The lines no state asserts (R165). -/
theorem clockEdge_neverAsserted (s : State) (i : Sample) :
    (s.clockEdge i).shown.stop = false ∧ (s.clockEdge i).shown.perr = false ∧ (s.clockEdge i).shown.serr = false ∧
      (s.clockEdge i).shown.req = false := by
  rw [clockEdge_shown]; exact ⟨rfl, rfl, rfl, rfl⟩

/-- The offset wire in every state (R166). -/
theorem clockEdge_off (s : State) (i : Sample) : (s.clockEdge i).shown.off = s.engine.off := by
  rw [clockEdge_shown]; rfl

theorem clockEdge_csrRdata (s : State) (i : Sample) :
    (s.clockEdge i).shown.csrRdata = s.csr.read s.engine.off := by
  rw [clockEdge_shown]; rfl

theorem clockEdge_cfgDout (s : State) (i : Sample) : (s.clockEdge i).shown.cfgDout = s.cfg.dout := by
  rw [clockEdge_shown]; rfl

/-- Settles O37: what a cycle shows is read off the state it begins in, and that state's outputs are known. -/
theorem outputsOfEachState : Obligations.OutputsOfEachState := by
  intro s
  obtain ⟨hstop, hperr, hserr, hreq⟩ := clockEdge_neverAsserted s s.presented
  obtain ⟨hdevsel, htrdy, hadOe, hcsrRe⟩ := clockEdge_outputs s s.presented
  refine ⟨_, step_eq_clockEdge s, hstop, hperr, hserr, hreq, clockEdge_cfgDout s _, clockEdge_off s _, ?_, ?_⟩
  · rw [clockEdge_csrRdata, clockEdge_off]
  simp only [hdevsel, htrdy, hadOe, hcsrRe, clockEdge_adOut, clockEdge_off]
  refine ⟨fun hst => ?_, fun hst => ?_, fun hst => ?_, fun hst => ?_⟩
  · obtain ⟨hd, ht, ho, hr⟩ := Engine.outputs_of_idle hst
    exact ⟨hd, ht, ho, hr, adOut_of_not_adOe ho⟩
  · obtain ⟨hd, ht, ho, hr⟩ := Engine.outputs_of_decode hst
    exact ⟨hd, ht, ho, hr, adOut_of_not_adOe ho⟩
  · obtain ⟨hd, ht, ho, hr⟩ := Engine.outputs_of_ioRead hst
    exact ⟨hd, ht, ho, hr, by rw [State.adOut, ho]⟩
  · obtain ⟨hd, ht, ho, hr⟩ := Engine.outputs_of_ioWrite hst
    exact ⟨hd, ht, ho, hr, adOut_of_not_adOe ho⟩

/-- Settles O38: the outputs of DECODE, as the cycle shows them. -/
theorem decodeClaimsTheTransaction : Obligations.DecodeClaimsTheTransaction := by
  intro s hst
  obtain ⟨hstop, -, -, -⟩ := clockEdge_neverAsserted s s.presented
  obtain ⟨hdevsel, htrdy, hadOe, hcsrRe⟩ := clockEdge_outputs s s.presented
  obtain ⟨hd, ht, ho, hr⟩ := Engine.outputs_of_decode hst
  exact ⟨_, step_eq_clockEdge s, hdevsel.trans hd, htrdy.trans ht, hstop, hadOe.trans ho, hcsrRe.trans hr⟩

/-- Settles O28: the latch moves the engine to an IDLE state, whose outputs are idle. -/
theorem idleStartIsIgnored : Obligations.IdleStartIsIgnored := by
  intro d sn c ad s hst hr hw
  have hguard : (decide (s.engine.st = .idle) && !claims c) = true := by simp [hst, claims, hr, hw]
  have hlatch : s.engine.latch ad c = { s.engine with st := .idle, addrLatch := ad, cmdLatch := c } := by
    rw [Engine.latch, hst]
  exact ⟨_, next_moveEngine_of_move hguard hlatch, rfl, rfl, rfl, rfl⟩

/-! ## Inputs that are not read -/

/-- Samples that make the same edge make the same step. -/
theorem step_congr {s : State} {i j : Sample} (is : List Sample) (h : s.clockEdge i = s.clockEdge j) :
    step { s with stim := i :: is } = step { s with stim := j :: is } := by
  rw [step_cons, step_cons, h]

/-- Settles O40: no move of the engine reads `rst`. -/
theorem rstNeverReachesEngine : Obligations.RstNeverReachesEngine := by
  intro s i is b
  refine ⟨_, _, step_cons s i is, step_cons s { i with rst := b } is, ?_⟩
  simp only [clockEdge_engine]
  rfl

/-- No share of an edge reads `lock`, `idsel` or `gnt` (R177). -/
theorem clockEdge_withUnread (s : State) (i : Sample) (l d g : Bool) :
    s.clockEdge { i with lock := l, idsel := d, gnt := g } = s.clockEdge i := rfl

/-- Outside IDLE no move of the engine reads `cbe` (R93, R177). -/
theorem Engine.next_withCbe {e : Engine} (h : e.st ≠ .idle) (i : Sample) (c : Command) :
    e.next { i with cbe := c } = e.next i := by
  cases hst : e.st with
  | idle => exact absurd hst h
  | decode => simp only [Engine.next, hst]
  | ioRead => simp only [Engine.next, hst]
  | ioWrite => simp only [Engine.next, hst]

/-- Nor does anything else of an edge. -/
theorem clockEdge_withCbe {s : State} (h : s.engine.st ≠ .idle) (i : Sample) (c : Command) :
    s.clockEdge { i with cbe := c } = s.clockEdge i := by
  simp only [State.clockEdge, Engine.next_withCbe h]
  rfl

/-- In DECODE nothing is stored (R162, R174). -/
theorem csrNext_of_decode {s : State} (h : s.engine.st = .decode) (i : Sample) : s.csrNext i = s.csr := by
  rw [State.csrNext, csrWe_eq_false _ (.inl (by simp [h])), if_neg Bool.false_ne_true]

/-- Settles O42: input by input, no share of the edge reads it in that state. -/
theorem unreadInputsChangeNothing : Obligations.UnreadInputsChangeNothing := by
  refine fun s i is => ⟨fun l d g => ?_, fun hst c => ?_, fun hst f r c a => ?_⟩
  · exact step_congr is (clockEdge_withUnread s i l d g).symm
  · exact step_congr is (clockEdge_withCbe hst i c).symm
  · refine ⟨_, _, step_cons s i is, step_cons s (Sample.withBus i f r c a) is, ?_, ?_⟩
    · simp only [clockEdge_engine, Engine.next_decode _ hst]
    · simp only [clockEdge_csr, csrNext_of_decode hst]

/-! ## A data phase, edge by edge -/

theorem ioOpen_iff {e : Engine} : e.ioOpen = true ↔ (e.st = .ioRead ∨ e.st = .ioWrite) ∧ e.devReady = true := by
  unfold Engine.ioOpen
  cases e.st <;> simp

theorem staysOpen_cons {seen : Bool} {i : Sample} {is : List Sample} :
    staysOpen seen (i :: is) = true ↔ endsStay seen i.frame i.irdy = false ∧ staysOpen (seenAfter seen i.irdy) is = true := by
  simp [staysOpen]

theorem noRst_cons {i : Sample} {is : List Sample} : noRst (i :: is) = true ↔ i.rst = false ∧ noRst is = true := by
  simp [noRst]

theorem noReset_of_rst {i : Sample} (s : State) (h : i.rst = false) : s.noReset i := by
  rw [State.noReset, h, Bool.false_and]

/-- The last data of a phase are those of its first edge only where no later edge has any (R211). -/
theorem lastData_cons (i : Sample) (is : List Sample) :
    lastData (i :: is) = (lastData is).or (if i.irdy then some i.adIn else none) := by
  unfold lastData
  cases hi : i.irdy with
  | false => simp [hi]
  | true =>
    simp only [List.filter_cons, hi, if_true, List.map_cons, List.getLast?_cons]
    cases ((is.filter (·.irdy)).map Sample.adIn).getLast? <;> rfl

/-- In an open data phase an edge that does not end it is a wait edge, after which the phase is still open (R173, R175). -/
theorem clockEdge_engine_of_ioOpen {s : State} {i : Sample} (ho : s.engine.ioOpen = true)
    (he : endsStay s.engine.irdySeen i.frame i.irdy = false) : (s.clockEdge i).engine = s.engine.wait i.irdy := by
  obtain ⟨hst, hd⟩ := ioOpen_iff.mp ho
  rw [clockEdge_engine, Engine.next_waits i hst hd he]

/-- Induction over an open data phase that nothing ends: a relation `P` between samples, the state before their edges and the
state after them holds of the whole phase if it holds of none and one more wait edge in front keeps it. -/
theorem edges_of_staysOpen {P : List Sample → State → State → Prop} (hnil : ∀ s, P [] s s)
    (hcons : ∀ i is s t, s.engine.ioOpen = true → (s.clockEdge i).engine = s.engine.wait i.irdy → i.rst = false →
      P is (s.clockEdge i) t → P (i :: is) s t)
    (ds : List Sample) {s : State} (ho : s.engine.ioOpen = true) (hstay : staysOpen s.engine.irdySeen ds = true)
    (hrst : noRst ds = true) : P ds s (s.edges ds) := by
  induction ds generalizing s with
  | nil => exact hnil s
  | cons i is ih =>
    obtain ⟨he, hstay⟩ := staysOpen_cons.mp hstay
    obtain ⟨hi, hrst⟩ := noRst_cons.mp hrst
    have hwait := clockEdge_engine_of_ioOpen ho he
    exact hcons i is s _ ho hwait hi (ih (by rw [hwait]; exact ho) (by rw [hwait]; exact hstay) hrst)

/-- A wait edge of a read leaves the word it drives. -/
theorem adOut_clockEdge_of_read {s : State} {i : Sample} (hst : s.engine.st = .ioRead)
    (hwait : (s.clockEdge i).engine = s.engine.wait i.irdy) (hi : i.rst = false) :
    (s.clockEdge i).adOut = s.adOut := by
  rw [State.adOut, hwait, clockEdge_csr_of_st (by simp [hst]) (noReset_of_rst s hi)]
  rfl

/-- An edge of a write stores `ad_in` if it has initiator-ready (R174). -/
theorem clockEdge_csr_of_write {s : State} {i : Sample} (hst : s.engine.st = .ioWrite) (hd : s.engine.devReady = true)
    (hi : i.rst = false) :
    (s.clockEdge i).csr = if i.irdy then s.csr.write s.engine.off i.adIn else s.csr := by
  split
  · next hirdy => exact clockEdge_csr_of_csrWe (csrWe_iff.mpr ⟨hst, hd, hirdy⟩) (noReset_of_rst s hi)
  · next hirdy =>
    have hno : s.engine.csrWe i.irdy = false := Bool.eq_false_iff.mpr fun h => hirdy (csrWe_iff.mp h).2.2
    exact clockEdge_csr_of_not_csrWe hno (noReset_of_rst s hi)

section OpenPhase

variable {ds : List Sample} {s : State} (ho : s.engine.ioOpen = true) (hstay : staysOpen s.engine.irdySeen ds = true)
  (hrst : noRst ds = true)
include ho hstay hrst

/-- A transaction makes every edge of the phase and goes on with what is pending behind it. -/
theorem runToIdle_of_staysOpen (rest : List Sample) : runToIdle (ds ++ rest) s = runToIdle rest (s.edges ds) := by
  refine edges_of_staysOpen (P := fun ds s t => runToIdle (ds ++ rest) s = runToIdle rest t) (fun s => rfl)
    (fun i is s t ho _ _ ih => ?_) ds ho hstay hrst
  have hne : s.engine.st ≠ .idle := fun hst => by simp [Engine.ioOpen, hst] at ho
  rw [List.cons_append, runToIdle_cons _ _ _ hne, ih]

/-- The engine stays and remembers whether any edge of the phase had initiator-ready (R173, R175, R178). -/
theorem edges_engine_of_staysOpen :
    (s.edges ds).engine = { s.engine with irdySeen := s.engine.irdySeen || ds.any (·.irdy) } := by
  refine edges_of_staysOpen
    (P := fun ds s t => t.engine = { s.engine with irdySeen := s.engine.irdySeen || ds.any (·.irdy) })
    (fun s => by simp) (fun i is s t _ hwait _ ih => ?_) ds ho hstay hrst
  rw [ih, hwait, List.any_cons, ← Bool.or_assoc]
  rfl

/-- A read stores nothing, however long it lasts (R173, R220). -/
theorem edges_csr_of_read (hst : s.engine.st = .ioRead) : (s.edges ds).csr = s.csr := by
  refine edges_of_staysOpen (P := fun _ s t => s.engine.st = .ioRead → t.csr = s.csr) (fun s _ => rfl)
    (fun i is s t _ hwait hi ih hst => ?_) ds ho hstay hrst hst
  have hst' : (s.clockEdge i).engine.st = .ioRead := by rw [hwait]; exact hst
  rw [ih hst', clockEdge_csr_of_st (by simp [hst]) (noReset_of_rst s hi)]

/-- So the word a read drives stays the same (R181, R216). -/
theorem edges_adOut_of_read (hst : s.engine.st = .ioRead) : (s.edges ds).adOut = s.adOut := by
  rw [State.adOut, edges_csr_of_read ho hstay hrst hst, edges_engine_of_staysOpen ho hstay hrst]
  rfl

/-- The last cycle of a read shows the same word as every cycle before it (R181, R216). -/
theorem edges_shown_adOut_of_read (hst : s.engine.st = .ioRead) :
    (s.edges ds).shown.adOut = if ds = [] then s.shown.adOut else s.adOut := by
  refine edges_of_staysOpen
    (P := fun ds s t => s.engine.st = .ioRead → t.shown.adOut = if ds = [] then s.shown.adOut else s.adOut)
    (fun s _ => rfl) (fun i is s t _ hwait hi ih hst => ?_) ds ho hstay hrst hst
  have hst' : (s.clockEdge i).engine.st = .ioRead := by rw [hwait]; exact hst
  rw [ih hst', clockEdge_adOut, adOut_clockEdge_of_read hst hwait hi, ite_self, if_neg (List.cons_ne_nil i is)]

/-- A write leaves its last data in the addressed word, if it had any (R211): of two stores the later one wins. -/
theorem edges_csr_of_write (hst : s.engine.st = .ioWrite) :
    (s.edges ds).csr = (lastData ds).elim s.csr (s.csr.write s.engine.off) := by
  refine edges_of_staysOpen
    (P := fun ds s t => s.engine.st = .ioWrite → t.csr = (lastData ds).elim s.csr (s.csr.write s.engine.off))
    (fun s _ => rfl) (fun i is s t ho hwait hi ih hst => ?_) ds ho hstay hrst hst
  have hst' : (s.clockEdge i).engine.st = .ioWrite := by rw [hwait]; exact hst
  have hoff : (s.clockEdge i).engine.off = s.engine.off := by rw [hwait]; rfl
  obtain ⟨-, hd⟩ := ioOpen_iff.mp ho
  rw [ih hst', hoff, clockEdge_csr_of_write hst hd hi, lastData_cons]
  cases lastData is with
  | none => cases i.irdy <;> rfl
  | some w =>
    cases i.irdy with
    | false => rfl
    | true => exact CsrFile.write_write ..

end OpenPhase

/-! ## A claimed command -/

/-- The start edge of a claimed command (R168, R169). -/
theorem clockEdge_start_engine {s : State} (hst : s.engine.st = .idle) {c : Command} (hc : claims c = true) (a : Word) :
    (s.clockEdge (startSample c a)).engine = (s.engine.latch a c).claim :=
  (clockEdge_engine ..).trans (Engine.next_claimed _ hst rfl hc)

/-- The start edge of a claimed command and the DECODE cycle after it, whatever its sample, open the engine, and leave the
Command/Status file (R169, R172). -/
theorem edges_start_decode {s : State} (hst : s.engine.st = .idle) {c : Command} (hc : claims c = true) (a : Word)
    {g : Sample} (hg : g.rst = false) :
    (s.edges [startSample c a, g]).engine = s.engine.opened c a ∧ (s.edges [startSample c a, g]).csr = s.csr := by
  have hclaim := clockEdge_start_engine hst hc a
  simp only [edges_cons, edges_nil]
  constructor
  · rw [clockEdge_engine, hclaim]
    exact Engine.next_decode _ rfl
  · rw [clockEdge_csr_of_st (by rw [hclaim]; exact Phase.noConfusion) (noReset_of_rst _ hg), clockEdge_csr_of_idle hst rfl]

/-- From IDLE a claimed command makes its start edge, its DECODE cycle, and then the edges of its data phase (R210, R211). -/
theorem busCommand_of_claims {s : State} (hst : s.engine.st = .idle) {c : Command} (hc : claims c = true) (a : Word)
    {g : Sample} {is : List Sample} (hstim : s.stim = g :: is) :
    s.busCommand c a = runToIdle is (s.edges [startSample c a, g]) := by
  have hne : (s.clockEdge (startSample c a)).engine.st ≠ .idle := by
    rw [clockEdge_start_engine hst hc a]
    exact Phase.noConfusion
  simp only [State.busCommand, hst, if_true, clockEdge_stim, hstim, runToIdle_cons _ _ _ hne, edges_cons, edges_nil]

/-- A claimed command whose pending samples do not end the data phase is still in it where they run out (R215): `t` is the
state of its first data cycle, from which all of them make edges. -/
theorem busCommand_of_staysOpen {s : State} (hst : s.engine.st = .idle) {c : Command} (hc : claims c = true) (a : Word)
    {g : Sample} {ds : List Sample} (hstim : s.stim = g :: ds) (hstay : staysOpen false ds = true)
    (hrst : noRst (g :: ds) = true) :
    ∃ t : State, t.engine = s.engine.opened c a ∧ t.csr = s.csr ∧ t.cycle = s.cycle + 2 ∧ t.engine.ioOpen = true ∧
      staysOpen t.engine.irdySeen ds = true ∧ s.busCommand c a = { t.edges ds with stim := [] } := by
  obtain ⟨hg, hrstDs⟩ := noRst_cons.mp hrst
  obtain ⟨hopened, hcsr⟩ := edges_start_decode hst hc a hg
  have ho : (s.edges [startSample c a, g]).engine.ioOpen = true := by
    rw [hopened]
    exact ioOpen_iff.mpr ⟨Engine.opened_st c a s.engine, rfl⟩
  have hstay' : staysOpen (s.edges [startSample c a, g]).engine.irdySeen ds = true := by rw [hopened]; exact hstay
  have hrun := runToIdle_of_staysOpen ho hstay' hrstDs []
  rw [List.append_nil] at hrun
  refine ⟨_, hopened, hcsr, edges_cycle _ s, ho, hstay', ?_⟩
  rw [busCommand_of_claims hst hc a hstim, hrun, runToIdle]

section Unended

variable {s : State} (hst : s.engine.st = .idle) (a : Word) {g : Sample} {ds : List Sample} (hstim : s.stim = g :: ds)
  (hstay : staysOpen false ds = true) (hrst : noRst (g :: ds) = true)
include hst hstim hstay hrst

/-- A read that is not ended goes on driving the addressed word (R213, R215, R216). -/
theorem exec_ior_of_staysOpen :
    ∃ t, exec (.ior a) s = .next t ∧ t.stim = [] ∧ t.cycle = s.cycle + ds.length + 2 ∧
      t.engine = ⟨.ioRead, a, ioReadCode, true, ds.any (·.irdy)⟩ ∧ t.csr = s.csr ∧
      t.adOut = s.csr.read (offsetOf a) ∧ (ds ≠ [] → t.shown.adOut = t.adOut) := by
  obtain ⟨t, hopened, hcsr, hcycle, ho, hstayT, hrun⟩ :=
    busCommand_of_staysOpen hst (c := ioReadCode) (by decide) a hstim hstay hrst
  obtain ⟨-, hrstDs⟩ := noRst_cons.mp hrst
  have hopen : t.engine = ⟨.ioRead, a, ioReadCode, true, false⟩ := hopened
  have hread : t.engine.st = .ioRead := congrArg Engine.st hopen
  have hdrive := edges_adOut_of_read ho hstayT hrstDs hread
  refine ⟨_, congrArg Host.Outcome.next hrun, rfl, ?_, ?_, ?_, hdrive.trans ?_, fun hne => ?_⟩
  · simp only [edges_cycle, hcycle]; omega
  · simp only [edges_engine_of_staysOpen ho hstayT hrstDs, hopen, Bool.false_or]
  · exact (edges_csr_of_read ho hstayT hrstDs hread).trans hcsr
  · rw [State.adOut, hopen, hcsr]
    rfl
  · exact ((edges_shown_adOut_of_read ho hstayT hrstDs hread).trans (if_neg hne)).trans hdrive.symm

/-- A write that is not ended has stored the last data so far (R213, R215). -/
theorem exec_iow_of_staysOpen :
    ∃ t, exec (.iow a) s = .next t ∧ t.stim = [] ∧ t.cycle = s.cycle + ds.length + 2 ∧
      t.engine = ⟨.ioWrite, a, ioWriteCode, true, ds.any (·.irdy)⟩ ∧
      t.csr = (lastData ds).elim s.csr (s.csr.write (offsetOf a)) := by
  obtain ⟨t, hopened, hcsr, hcycle, ho, hstayT, hrun⟩ :=
    busCommand_of_staysOpen hst (c := ioWriteCode) (by decide) a hstim hstay hrst
  obtain ⟨-, hrstDs⟩ := noRst_cons.mp hrst
  have hopen : t.engine = ⟨.ioWrite, a, ioWriteCode, true, false⟩ := hopened
  have hwrite : t.engine.st = .ioWrite := congrArg Engine.st hopen
  refine ⟨_, congrArg Host.Outcome.next hrun, rfl, ?_, ?_, ?_⟩
  · simp only [edges_cycle, hcycle]; omega
  · simp only [edges_engine_of_staysOpen ho hstayT hrstDs, hopen, Bool.false_or]
  · refine (edges_csr_of_write ho hstayT hrstDs hwrite).trans ?_
    rw [hopen, hcsr]
    rfl

end Unended

/-- Settles O49: each command is still in its data phase, and the outputs are those of its state with the gate open. -/
theorem unendedDataPhaseGoesOn : Obligations.UnendedDataPhaseGoesOn := by
  intro a s g ds hst hstim hstay hrst
  constructor
  · obtain ⟨t, hrun, hrest, hcycle, hengine, hcsr, hword, hshown⟩ := exec_ior_of_staysOpen hst a hstim hstay hrst
    obtain ⟨hdevsel, htrdy, hadOe, -⟩ := Engine.outputs_of_ioRead (congrArg Engine.st hengine)
    have hgate := congrArg Engine.devReady hengine
    exact ⟨t, hrun, hrest, hcycle, hengine, hcsr, hdevsel, htrdy.trans hgate, hadOe.trans hgate, hword, hshown⟩
  · obtain ⟨t, hrun, hrest, hcycle, hengine, hcsr⟩ := exec_iow_of_staysOpen hst a hstim hstay hrst
    obtain ⟨hdevsel, htrdy, hadOe, -⟩ := Engine.outputs_of_ioWrite (congrArg Engine.st hengine)
    have hgate := congrArg Engine.devReady hengine
    refine ⟨t, hrun, hrest, hcycle, hengine, hcsr.trans ?_, hdevsel, htrdy.trans hgate, hadOe⟩
    cases lastData ds <;> rfl

end Sys2Proof.Machine

/-! # Proofs: transactions

Each of the sixteen commands is the transaction of its code (`exec_of_mem_busCommands`). One that is not claimed is its start
edge alone (`busCommand_of_not_claims`); a claimed one that ends is the transaction that its data phase leaves open, as
`unendedDataPhaseGoesOn` describes it, and then the end edge (`busCommand_append_end`). -/

namespace Sys2Proof.Machine

/-! ## The sixteen commands -/

/-- Each command is the transaction of its code (R92, R94, R210 to R212). -/
theorem exec_of_mem_busCommands {a : Word} {p : Instr × Command} (hp : p ∈ busCommands a) (s : State) :
    exec p.1 s = .next (s.busCommand p.2 a) := by
  fin_cases hp <;> rfl

theorem mem_busCommands_of_ignored {a : Word} {p : Instr × Command} (hp : p ∈ ignoredCommands a) : p ∈ busCommands a :=
  List.mem_cons_of_mem _ (List.mem_cons_of_mem _ hp)

/-- No ignored command has a claimed code (R94, R170). -/
theorem claims_of_ignored {a : Word} {p : Instr × Command} (hp : p ∈ ignoredCommands a) : claims p.2 = false := by
  fin_cases hp <;> rfl

/-! ## A transaction is a run of steps -/

/-- The edges of a transaction are as many steps with its samples pending (R7). -/
theorem exists_run_eq_runToIdle (is : List Sample) (s : State) :
    ∃ k ≤ is.length, Host.Core.run Sys2Proof.core k { s with stim := is } = .next (runToIdle is s) := by
  induction is generalizing s with
  | nil => exact ⟨0, le_rfl, rfl⟩
  | cons i is ih =>
    by_cases hst : s.engine.st = .idle
    · exact ⟨0, Nat.zero_le _, by rw [runToIdle_idle s _ hst]; rfl⟩
    · obtain ⟨k, hk, hrun⟩ := ih (s.clockEdge i)
      refine ⟨k + 1, Nat.succ_le_succ hk, ?_⟩
      rw [run_succ Sys2Proof.core k (step_cons s i is), runToIdle_cons s i is hst]
      exact hrun

/-- Settles O9: the start edge is one step, and from IDLE the edges of the transaction are the steps after it. -/
theorem transactionIsARunOfSteps : Obligations.TransactionIsARunOfSteps := by
  intro a p hp s
  have hstart : step { s with stim := startSample p.2 a :: s.stim } = .next (s.clockEdge (startSample p.2 a)) :=
    step_load_cons _ [] s
  rw [exec_of_mem_busCommands hp, State.busCommand]
  split
  · obtain ⟨k, hk, hrun⟩ :=
      exists_run_eq_runToIdle (s.clockEdge (startSample p.2 a)).stim (s.clockEdge (startSample p.2 a))
    rw [clockEdge_stim] at hk
    exact ⟨k + 1, Nat.le_add_left 1 k, Nat.succ_le_succ hk, (run_succ Sys2Proof.core k hstart).trans hrun⟩
  · exact ⟨1, le_rfl, Nat.le_add_left 1 _, run_succ Sys2Proof.core 0 hstart⟩

/-! ## A command that is not claimed -/

section Ignored

variable {s : State} (hst : s.engine.st = .idle) {c : Command} (hc : claims c = false) (a : Word)
include hst hc

/-- The start edge of an ignored command writes the latches (R168, R170, decision D7). -/
theorem clockEdge_ignored_engine : (s.clockEdge (startSample c a)).engine = s.engine.latch a c :=
  (clockEdge_engine ..).trans (Engine.next_ignored _ hst rfl hc)

/-- The engine stays in IDLE, so the start edge is the whole transaction (R212). -/
theorem busCommand_of_not_claims : s.busCommand c a = s.clockEdge (startSample c a) := by
  have hidle : (s.clockEdge (startSample c a)).engine.st = .idle := by
    rw [clockEdge_ignored_engine hst hc a]; exact hst
  rw [State.busCommand, if_pos hst, runToIdle_idle _ _ hidle]

end Ignored

/-- Settles O45: the command is its start edge, in a cycle of IDLE and followed by one. -/
theorem ignoredCommandsOnlyLatch : Obligations.IgnoredCommandsOnlyLatch := by
  intro a p hp s hst
  have hlatch := clockEdge_ignored_engine hst (claims_of_ignored hp) a
  have hrun : exec p.1 s = .next (s.clockEdge (startSample p.2 a)) := by
    rw [exec_of_mem_busCommands (mem_busCommands_of_ignored hp), busCommand_of_not_claims hst (claims_of_ignored hp)]
  obtain ⟨hdevsel, htrdy, hadOe, -⟩ := clockEdge_outputs s (startSample p.2 a)
  obtain ⟨hd, ht, ho, -⟩ := Engine.outputs_of_idle hst
  obtain ⟨hd', ht', ho', -⟩ := Engine.outputs_of_idle (e := s.engine.latch a p.2) hst
  rw [← hlatch] at hd' ht' ho'
  exact ⟨_, hrun, hlatch, clockEdge_csr_of_idle hst rfl, clockEdge_cfg_of_portIdle rfl rfl rfl, clockEdge_config ..,
    clockEdge_stim .., clockEdge_cycle .., hdevsel.trans hd, htrdy.trans ht, hadOe.trans ho,
    (clockEdge_adOut ..).trans (adOut_of_not_adOe ho), hd', ht', ho'⟩

/-! ## What a transaction leaves alone -/

/-- No transaction changes the parameters (R10). -/
theorem busCommand_config (c : Command) (a : Word) (s : State) : (s.busCommand c a).config = s.config := by
  obtain ⟨hconfig, -⟩ := busCommand_keeps_of_advance (sameFixed_of_advance s) c a ⟨rfl, rfl⟩
  exact hconfig

theorem cfgIdle_cons {i : Sample} {is : List Sample} :
    cfgIdle (i :: is) = true ↔ (i.cfgWe = false ∧ i.cfgRe = false) ∧ cfgIdle is = true := by
  simp [cfgIdle]

/-- With its port at rest and `rst` deasserted the edges of a transaction leave the Configuration file (R131, R219). -/
theorem runToIdle_cfg {is : List Sample} (hport : cfgIdle is = true) (hrst : noRst is = true) (s : State) :
    (runToIdle is s).cfg = s.cfg := by
  induction is generalizing s with
  | nil => rfl
  | cons i is ih =>
    obtain ⟨⟨hwe, hre⟩, hport⟩ := cfgIdle_cons.mp hport
    obtain ⟨hi, hrst⟩ := noRst_cons.mp hrst
    by_cases hst : s.engine.st = .idle
    · rw [runToIdle_idle s _ hst]
    · rw [runToIdle_cons s i is hst, ih hport hrst, clockEdge_cfg_of_portIdle hwe hre (noReset_of_rst s hi)]

/-- So does the whole command, whose own sample has both at rest (R90, R219). -/
theorem busCommand_cfg {s : State} (hport : cfgIdle s.stim = true) (hrst : noRst s.stim = true) (c : Command)
    (a : Word) : (s.busCommand c a).cfg = s.cfg := by
  have hstart : (s.clockEdge (startSample c a)).cfg = s.cfg := clockEdge_cfg_of_portIdle rfl rfl rfl
  rw [State.busCommand, clockEdge_stim]
  split
  · rw [runToIdle_cfg hport hrst, hstart]
  · exact hstart

/-! ## What does not depend on the Configuration file -/

/-- `s` and `t` agree on everything the bus shows or can change: all but the Configuration file, the cycle number and the
record of the wires that are not on the bus. -/
structure State.SameBus (s t : State) : Prop where
  engine : t.engine = s.engine
  csr : t.csr = s.csr
  config : t.config = s.config
  stim : t.stim = s.stim
  adOut : t.shown.adOut = s.shown.adOut
  bus : t.shown.bus = s.shown.bus

namespace State.SameBus

variable {s t : State} (h : s.SameBus t)
include h

theorem adOut_eq : t.adOut = s.adOut := by
  rw [State.adOut, State.adOut, h.engine, h.csr]

/-- No share of an edge but the Configuration file's own reads that file (R71, R77). -/
theorem clockEdge (i : Sample) : (s.clockEdge i).SameBus (t.clockEdge i) where
  engine := by rw [clockEdge_engine, clockEdge_engine, h.engine]
  csr := by simp only [clockEdge_csr, State.csrNext, h.engine, h.csr, h.config]
  config := by rw [clockEdge_config, clockEdge_config, h.config]
  stim := by rw [clockEdge_stim, clockEdge_stim, h.stim]
  adOut := by rw [clockEdge_adOut, clockEdge_adOut, h.adOut_eq]
  bus := by simp only [clockEdge_bus, State.targetDrive, h.engine, h.adOut_eq]

theorem withStim (is : List Sample) : State.SameBus { s with stim := is } { t with stim := is } :=
  ⟨h.engine, h.csr, h.config, rfl, h.adOut, h.bus⟩

theorem runToIdle (is : List Sample) : (runToIdle is s).SameBus (runToIdle is t) := by
  induction is generalizing s t with
  | nil => exact h.withStim []
  | cons i is ih =>
    by_cases hst : s.engine.st = .idle
    · rw [runToIdle_idle s _ hst, runToIdle_idle t _ (h.engine ▸ hst)]
      exact h.withStim (i :: is)
    · rw [runToIdle_cons s i is hst, runToIdle_cons t i is (h.engine ▸ hst)]
      exact ih (h.clockEdge i)

theorem busCommand (c : Command) (a : Word) : (s.busCommand c a).SameBus (t.busCommand c a) := by
  have hstart := h.clockEdge (startSample c a)
  simp only [State.busCommand, hstart.stim, h.engine]
  split
  · exact hstart.runToIdle _
  · exact hstart

end State.SameBus

/-- Settles O51: the file is left alone, the two configuration codes are not claimed, and two states that differ in the file
alone show the bus the same. -/
theorem noCommandReachesConfiguration : Obligations.NoCommandReachesConfiguration := by
  intro a p hp s
  refine ⟨_, exec_of_mem_busCommands hp s, fun hport hrst => busCommand_cfg hport hrst p.2 a, fun hst hcode => ?_,
    fun f => ⟨_, exec_of_mem_busCommands hp _, ?_⟩⟩
  · have hc : claims p.2 = false := by rcases hcode with h | h <;> rw [h] <;> rfl
    rw [busCommand_of_not_claims hst hc, clockEdge_ignored_engine hst hc]
    exact ⟨hst, clockEdge_csr_of_idle hst rfl, clockEdge_stim ..⟩
  · have hsame : s.SameBus { s with cfg := f } := ⟨rfl, rfl, rfl, rfl, rfl, rfl⟩
    obtain ⟨hengine, hcsr, -, hstim, hadOut, hbus⟩ := hsame.busCommand p.2 a
    exact ⟨hengine, hcsr, hstim, hadOut, hbus⟩

/-! ## The end of a transaction -/

/-- An edge does not read the pending stimulus. -/
theorem clockEdge_withStim (s : State) (i : Sample) (is : List Sample) :
    ({ s with stim := is } : State).clockEdge i = { s.clockEdge i with stim := is } := by
  simp only [State.clockEdge, State.applyRst]
  split <;> rfl

/-- Nor do the edges of a transaction, whose samples are given to them. -/
theorem runToIdle_withStim (is js : List Sample) (s : State) : runToIdle is { s with stim := js } = runToIdle is s := by
  induction is generalizing s with
  | nil => rfl
  | cons i is ih =>
    unfold runToIdle
    rw [clockEdge_withStim, ih]

/-- Where the samples `is` leave the engine outside IDLE and the edge `e` after them ends the stay, the transaction is their
edges, then `e`. -/
theorem runToIdle_append_end {is : List Sample} {e : Sample} {s t : State} (hrun : runToIdle is s = t)
    (hopen : t.engine.st ≠ .idle) (hend : (t.clockEdge e).engine.st = .idle) (rest : List Sample) :
    runToIdle (is ++ e :: rest) s = { t.clockEdge e with stim := rest } := by
  induction is generalizing s with
  | nil =>
    subst hrun
    simp only [runToIdle, clockEdge_withStim] at hopen hend ⊢
    rw [List.nil_append, runToIdle_cons s e rest hopen, runToIdle_idle _ rest hend]
  | cons i is ih =>
    have hst : s.engine.st ≠ .idle := by
      intro hst
      rw [runToIdle_idle s _ hst] at hrun
      subst hrun
      exact hopen hst
    rw [runToIdle_cons s i is hst] at hrun
    rw [List.cons_append, runToIdle_cons s i _ hst, ih hrun]

/-- The same for a whole bus command: `t` is the state in which it would still be open without `e`. -/
theorem busCommand_append_end {s t : State} (hst : s.engine.st = .idle) {c : Command} {a : Word} {is rest : List Sample}
    {e : Sample} (hstim : s.stim = is ++ e :: rest) (hrun : State.busCommand c a { s with stim := is } = t)
    (hopen : t.engine.st ≠ .idle) (hend : (t.clockEdge e).engine.st = .idle) :
    s.busCommand c a = { t.clockEdge e with stim := rest } := by
  have hunended : runToIdle is (s.clockEdge (startSample c a)) = t := by
    rw [← hrun, State.busCommand, if_pos hst, clockEdge_withStim s (startSample c a) is]
    exact (runToIdle_withStim is is _).symm
  rw [State.busCommand, if_pos hst, clockEdge_stim, hstim, runToIdle_append_end hunended hopen hend]

/-- The end edge of an open data phase returns to IDLE and stores nothing (R173 to R175). -/
theorem clockEdge_of_end {t : State} {e : Sample} (hst : t.engine.st = .ioRead ∨ t.engine.st = .ioWrite)
    (hd : t.engine.devReady = true) (hseen : t.engine.irdySeen = true) (hframe : e.frame = false)
    (hirdy : e.irdy = false) (hrst : e.rst = false) :
    (t.clockEdge e).engine = t.engine.finish ∧ (t.clockEdge e).csr = t.csr := by
  constructor
  · rw [clockEdge_engine, Engine.next_ends e hst hd (endsStay_iff.mpr ⟨hseen, hframe, hirdy⟩)]
  · have hno : t.engine.csrWe e.irdy = false := by
      rw [hirdy]; exact Bool.eq_false_iff.mpr fun h => Bool.false_ne_true (csrWe_iff.mp h).2.2
    exact clockEdge_csr_of_not_csrWe hno (noReset_of_rst t hrst)

theorem cfgIdle_concat {is : List Sample} {e : Sample} :
    cfgIdle (is ++ [e]) = true ↔ cfgIdle is = true ∧ e.cfgWe = false ∧ e.cfgRe = false := by
  simp [cfgIdle]

theorem noRst_concat {is : List Sample} {e : Sample} :
    noRst (is ++ [e]) = true ↔ noRst is = true ∧ e.rst = false := by
  simp [noRst]

theorem isDataPhase_iff {ds : List Sample} {e : Sample} :
    isDataPhase ds e = true ↔
      staysOpen false ds = true ∧ ds.any (·.irdy) = true ∧ e.frame = false ∧ e.irdy = false := by
  simp only [isDataPhase, Bool.and_eq_true, Bool.not_eq_true', and_assoc]

section Ended

variable {a : Word} {s : State} {g : Sample} {ds : List Sample} {e : Sample} {rest : List Sample}
  (hst : s.engine.st = .idle) (hstim : s.stim = g :: (ds ++ e :: rest)) (hphase : isDataPhase ds e = true)
  (hrst : noRst (g :: (ds ++ [e])) = true)
include hst hstim hphase hrst

/-- A claimed command whose data phase ends, told from `t`, the state in which its data phase alone leaves it: the last cycle
shows what `t` drives, and its edge returns to IDLE and leaves the Command/Status file (R210, R211, R220). -/
theorem busCommand_of_isDataPhase {c : Command} {t : State} {p : Phase} (hp : p = .ioRead ∨ p = .ioWrite)
    (hrun : State.busCommand c a { s with stim := g :: ds } = t)
    (hengine : t.engine = ⟨p, a, c, true, ds.any (·.irdy)⟩) :
    ∃ u, s.busCommand c a = u ∧ u.engine = ⟨.idle, a, c, false, false⟩ ∧ u.csr = t.csr ∧ u.config = s.config ∧
      u.stim = rest ∧ u.cycle = t.cycle + 1 ∧ u.shown.adOut = t.adOut ∧ u.shown.devsel = t.engine.devsel ∧
      u.shown.trdy = t.engine.trdy ∧ u.shown.adOe = t.engine.adOe ∧
      (cfgIdle (g :: (ds ++ [e])) = true → u.cfg = s.cfg) := by
  obtain ⟨-, hseen, hframe, hirdy⟩ := isDataPhase_iff.mp hphase
  obtain ⟨hrstDs, he⟩ := (noRst_concat (is := g :: ds)).mp hrst
  have hio : t.engine.st = .ioRead ∨ t.engine.st = .ioWrite := by rw [hengine]; exact hp
  have hopen : t.engine.st ≠ .idle := by rcases hio with h | h <;> rw [h] <;> exact Phase.noConfusion
  obtain ⟨hfinish, hcsr⟩ :=
    clockEdge_of_end hio (congrArg Engine.devReady hengine) ((congrArg Engine.irdySeen hengine).trans hseen) hframe hirdy he
  have hend : (t.clockEdge e).engine.st = .idle := congrArg Engine.st hfinish
  obtain ⟨hdevsel, htrdy, hadOe, -⟩ := clockEdge_outputs t e
  have hconfig : t.config = s.config := by rw [← hrun, busCommand_config]
  refine ⟨_, busCommand_append_end hst (is := g :: ds) hstim hrun hopen hend, ?_, hcsr, ?_, rfl, clockEdge_cycle ..,
    clockEdge_adOut .., hdevsel, htrdy, hadOe, fun hport => ?_⟩
  · exact hfinish.trans (by rw [hengine, Engine.finish])
  · exact (clockEdge_config ..).trans hconfig
  · obtain ⟨hportDs, hwe, hre⟩ := (cfgIdle_concat (is := g :: ds)).mp hport
    refine (clockEdge_cfg_of_portIdle hwe hre (noReset_of_rst t he)).trans ?_
    rw [← hrun]
    exact busCommand_cfg (s := { s with stim := g :: ds }) hportDs hrstDs c a

end Ended

/-- A read at the offset of an address shows the word that its index selects, if that is one of the two (R61, R96). -/
theorem CsrFile.read_offsetOf (f : CsrFile) (a : Word) :
    f.read (offsetOf a) =
      if a.extractLsb' 2 4 = 0b0000#4 then f.cmd else if a.extractLsb' 2 4 = 0b0001#4 then f.stat else sentinel := by
  split
  · next h0 => rw [offsetOf_eq_of_index h0]; exact f.read_cmd
  · next h0 =>
    split
    · next h1 => rw [offsetOf_eq_of_index h1]; exact f.read_stat
    · next h1 => exact f.read_unmapped _ (isCsrMapped_offsetOf_eq_false h0 h1)

/-- A phase in which initiator-ready is asserted has last data (R211). -/
theorem exists_lastData {ds : List Sample} (h : ds.any (·.irdy) = true) : ∃ v, lastData ds = some v := by
  obtain ⟨i, hmem, hirdy⟩ := List.any_eq_true.mp h
  have hne : (ds.filter (·.irdy)).map Sample.adIn ≠ [] :=
    List.ne_nil_of_mem (List.mem_map_of_mem (List.mem_filter.mpr ⟨hmem, hirdy⟩))
  exact ⟨_, List.getLast?_eq_some_getLast hne⟩

/-- Settles O46: the data phase left open drives the addressed word (`unendedDataPhaseGoesOn`), and the end edge shows it once
more. -/
theorem iorReadsTheAddressedWord : Obligations.IorReadsTheAddressedWord := by
  intro a s g ds e rest hst hstim hphase hrst
  obtain ⟨hstay, -⟩ := isDataPhase_iff.mp hphase
  obtain ⟨hrstDs, -⟩ := (noRst_concat (is := g :: ds)).mp hrst
  obtain ⟨⟨t, hexec, -, hcycle, hengine, hcsr, hdevsel, htrdy, hadOe, hadOut, -⟩, -⟩ :=
    unendedDataPhaseGoesOn a { s with stim := g :: ds } g ds hst rfl hstay hrstDs
  obtain ⟨u, hrun, hidle, hcsr', hconfig, hrest, hcycle', hadOut', hdevsel', htrdy', hadOe', hcfg⟩ :=
    busCommand_of_isDataPhase hst hstim hphase hrst (.inl rfl) (Host.Outcome.next.inj hexec) hengine
  obtain ⟨hd, ht, ho, -⟩ := Engine.outputs_of_idle (congrArg Engine.st hidle)
  refine ⟨u, congrArg Host.Outcome.next hrun, hidle, hcsr'.trans hcsr, hconfig, hrest, ?_, ?_, hdevsel'.trans hdevsel,
    htrdy'.trans htrdy, hadOe'.trans hadOe, hd, ht, ho, hcfg⟩
  · rw [hcycle', hcycle]
  · rw [hadOut', hadOut, CsrFile.read_offsetOf]

/-- Settles O47: the data phase left open has stored its last data (`unendedDataPhaseGoesOn`), and the end edge stores nothing. -/
theorem iowStoresTheLastData : Obligations.IowStoresTheLastData := by
  intro a s g ds e rest hst hstim hphase hrst
  obtain ⟨hstay, hany, -⟩ := isDataPhase_iff.mp hphase
  obtain ⟨hrstDs, -⟩ := (noRst_concat (is := g :: ds)).mp hrst
  obtain ⟨-, t, hexec, -, hcycle, hengine, hcsr, hdevsel, htrdy, hadOe⟩ :=
    unendedDataPhaseGoesOn a { s with stim := g :: ds } g ds hst rfl hstay hrstDs
  obtain ⟨u, hrun, hidle, hcsr', hconfig, hrest, hcycle', -, hdevsel', htrdy', hadOe', hcfg⟩ :=
    busCommand_of_isDataPhase hst hstim hphase hrst (.inr rfl) (Host.Outcome.next.inj hexec) hengine
  obtain ⟨hd, ht, ho, -⟩ := Engine.outputs_of_idle (congrArg Engine.st hidle)
  obtain ⟨v, hv⟩ := exists_lastData hany
  refine ⟨u, v, congrArg Host.Outcome.next hrun, hv, hidle, ?_, hconfig, hrest, ?_, hdevsel'.trans hdevsel,
    htrdy'.trans htrdy, hadOe'.trans hadOe, hd, ht, ho, hcfg⟩
  · rw [hcsr', hcsr, hv]
    exact CsrFile.write_offsetOf s.csr a v
  · rw [hcycle', hcycle]

/-- Settles O48: the write leaves IDLE and its value in the word of the index, which the read then shows; there is no word
for an index from 2 on. -/
theorem writeThenReadRoundTrip : Obligations.WriteThenReadRoundTrip := by
  intro a b s g g' ds ds' e e' rest hst hindex hstim hphase hphase' hrst hrst'
  obtain ⟨t, v, hwrite, hv, hidle, hcsr, -, hrest, -⟩ := iowStoresTheLastData a s g ds e _ hst hstim hphase hrst
  obtain ⟨u, hread, -, -, -, -, -, hadOut, -⟩ :=
    iorReadsTheAddressedWord b t g' ds' e' rest (congrArg Engine.st hidle) hrest hphase' hrst'
  refine ⟨t, u, v, hwrite, hread, hv, ?_⟩
  rw [hadOut, hcsr, hindex]
  generalize b.extractLsb' 2 4 = idx
  by_cases h0 : idx = 0b0000#4
  · simp [h0]
  · by_cases h1 : idx = 0b0001#4
    · simp [h1]
    · have hge : ¬ idx.toNat < 2 := by bv_omega
      rw [if_neg h0, if_neg h1, if_neg hge]

end Sys2Proof.Machine

/-! # Proofs: nothing stops, and commands outside IDLE

Every operation answers a next state (`exec_keeps`) and so does every step (`step_eq_clockEdge`). A command outside IDLE is its
one edge (`busCommand_of_st_ne`), at which no move of the engine writes a latch (`Engine.Move.latches`) and, `frame` being
asserted, none ends a data phase (`Engine.next_st_of_frame`). -/

namespace Sys2Proof.Machine

/-- Settles O10: the case split over the 41 rows is `exec_keeps`, here for the property that every state has; a step is an edge
of the reference listing, which is a function. -/
theorem nothingEverStops : Obligations.NothingEverStops := by
  refine ⟨fun i s => ?_, fun s => ⟨_, step_eq_clockEdge s⟩⟩
  obtain ⟨t, hexec, -⟩ := exec_keeps (P := fun _ => True) (fun _ _ _ _ => trivial) i (s := s) trivial
  exact ⟨t, hexec⟩

/-- Only the moves from IDLE write the latches (R168, R239). -/
theorem Engine.Move.latches {e e' : Engine} (hm : e.Move e') (h : e.st ≠ .idle) :
    e'.addrLatch = e.addrLatch ∧ e'.cmdLatch = e.cmdLatch := by
  cases hm with
  | latch _ _ hst => exact absurd hst h
  | claim _ _ hst => exact absurd hst h
  | hold | goIo | finish | wait => exact ⟨rfl, rfl⟩

/-- Outside IDLE an edge with `frame` asserted leads to an IO state: DECODE is left for one, and no IO state ends (R172, R173,
R175). -/
theorem Engine.next_st_of_frame {e : Engine} (h : e.st ≠ .idle) {i : Sample} (hf : i.frame = true) :
    (e.next i).st = .ioRead ∨ (e.next i).st = .ioWrite := by
  have hio (hst : e.st = .ioRead ∨ e.st = .ioWrite) : (e.next i).st = .ioRead ∨ (e.next i).st = .ioWrite := by
    rw [Engine.next_st_of_io i hst, if_neg (by simp [hf])]
    exact hst
  cases hst : e.st with
  | idle => exact absurd hst h
  | decode =>
    rw [Engine.next_decode i hst, Engine.goIo]
    exact ite_eq_or_eq ..
  | ioRead => exact hio (.inl hst)
  | ioWrite => exact hio (.inr hst)

/-- Outside IDLE a command is no start: its sample makes one edge (R239, assumption 7). -/
theorem busCommand_of_st_ne {s : State} (h : s.engine.st ≠ .idle) (c : Command) (a : Word) :
    s.busCommand c a = s.clockEdge (startSample c a) := by
  rw [State.busCommand, if_neg h]

/-- Settles O50: the command is one edge, with `frame` asserted and the configuration port and `rst` at rest. -/
theorem commandOutsideIdleIsNoStart : Obligations.CommandOutsideIdleIsNoStart := by
  intro a p hp s hst
  have hrun : exec p.1 s = .next (s.clockEdge (startSample p.2 a)) := by
    rw [exec_of_mem_busCommands hp, busCommand_of_st_ne hst]
  obtain ⟨haddr, hcmd⟩ := (Engine.move_next (startSample p.2 a) s.engine).latches hst
  have hio := Engine.next_st_of_frame hst (i := startSample p.2 a) rfl
  refine ⟨_, hrun, ?_, ?_, ?_, ?_, clockEdge_cfg_of_portIdle rfl rfl rfl, clockEdge_stim .., clockEdge_cycle ..⟩
  all_goals rw [clockEdge_engine]
  · exact haddr
  · exact hcmd
  all_goals rcases hio with h | h <;> simp [h]

end Sys2Proof.Machine
